-- ==== Sys2Proof/Word.lean ====
section
/-! DEFINITION. The word types of the block: unsigned bit strings of the widths its registers and bus accesses have
(spec 00_scope.md R12, 42_scaler.md R131). -/

namespace Sys2Proof

/-- A byte: a status byte, a byte written on the bus, a byte of the output buffer. -/
abbrev Byte := BitVec 8

/-- A 16-bit word: what a data read returns, the registers SAMPLE, RAW and L_CAP. -/
abbrev Half := BitVec 16

/-- A 64-bit word: the registers SCALED, VOLT and VALUE. -/
abbrev Long := BitVec 64

/-- The 4-bit register STATE (spec 10_state.md R22). -/
abbrev StateCode := BitVec 4

end Sys2Proof
end

