-- ==== Sys2Proof/Syntax.lean ====
section
/-! DEFINITION. The operations of the block, one constructor per row of spec/opcode_table.json (30_encoding.md R70 to
R79). The block executes no instruction words: an operation is selected by a command code, by the register STATE, by
an event, by an access descriptor or by a field of CFG, and its operands are those its rule lists. -/

namespace Sys2Proof

/-- The stage of a timeout (00_scope.md R18, 60_exceptions.md R170). -/
inductive Stage where
  /-- STAGE 1, ReadyTimeout. -/
  | waitingForDevice
  /-- STAGE 2, DrainTimeout. -/
  | discardingData
  /-- STAGE 3, DataTimeout. -/
  | waitingForData
  deriving DecidableEq, Repr

/-- The operations of ACQ. -/
inductive Instr where
  /-- NOP, host command 00 (41_acquisition_fsm.md R103). -/
  | nop
  /-- START, host command 01, the source's acquire (R100). -/
  | start
  /-- INIT, host command 10 (R101). -/
  | init
  /-- ACK, host command 11 (R102). -/
  | ack
  /-- State operation 0x0 (R113). -/
  | idle
  /-- State operation 0x1 (R104). -/
  | waitReadyPre
  /-- State operation 0x2 (R105). -/
  | drain
  /-- State operation 0x3 (R106). -/
  | trigger
  /-- State operation 0x4 (R107). -/
  | waitReadyPost
  /-- State operation 0x5 (R108). -/
  | read
  /-- State operation 0x6 (R109). -/
  | success
  /-- State operation 0x7 (R110). -/
  | timeout
  /-- State operation 0x8 (R111). -/
  | fault
  /-- State operation 0x9, INIT_STATE in the table (R112). -/
  | initState
  /-- SUSPEND_EXPIRE, the event TICK while WAITING = 1 (R114). -/
  | suspendExpire
  /-- RESET, the event RST (70_reset_and_hazards.md R200). -/
  | reset
  /-- RD_STATUS, descriptor 0 0 00 (40_register_interface.md R90). -/
  | rdStatus
  /-- RD_DATA, descriptor 0 1 01 (R91). -/
  | rdData
  /-- WR_TRIGGER, descriptor 1 0 10 (R92); its byte is TRIG_VALUE of CFG. -/
  | wrTrigger
  /-- WR_CONFIG, descriptor 1 0 11, of the byte b at the offset off (R93). -/
  | wrConfig (off : Long) (b : Byte)
  /-- ISREADY with READY_POL = 0, of the status byte s (42_scaler.md R130). -/
  | isReadyClear (s : Byte)
  /-- ISREADY with READY_POL = 1, of the status byte s (R130). -/
  | isReadySet (s : Byte)
  /-- ISNOTEMPTY with NE_POL = 0, of the status byte s (R137). -/
  | isNotEmptyClear (s : Byte)
  /-- ISNOTEMPTY with NE_POL = 1, of the status byte s (R137). -/
  | isNotEmptySet (s : Byte)
  /-- EXTRACT with EXTRACT_MODE = 0, of the data word w (R132). -/
  | extractLow12 (w : Half)
  /-- EXTRACT with EXTRACT_MODE = 1, of the data word w (R132). -/
  | extractShift4 (w : Half)
  /-- EXTRACT with EXTRACT_MODE = 2, of the data word w (R132). -/
  | extractMask4 (w : Half)
  /-- SCALE of the sample r (R133). -/
  | scale (r : Half)
  /-- DIVIDE of the product sc (R134). -/
  | divide (sc : Long)
  /-- CONVERT of the sample r (R135). -/
  | convert (r : Half)
  /-- RAWOUT of the sample r (43_formatter.md R155). -/
  | rawOut (r : Half)
  /-- FORMAT of the fixed-point voltage v (R151). -/
  | format (v : Long)
  /-- DECIMAL of the unsigned number v (R152). -/
  | decimal (v : Long)
  /-- DIAGLINE of a stage (R156). -/
  | diagLine (stage : Stage)
  /-- LENIENT with OUT_MODE = RAW (R157). -/
  | lenientZeroValue
  /-- LENIENT with OUT_MODE = FORMATTED (R157). -/
  | lenientEmpty
  /-- TRUNC of the byte string full (R158). -/
  | trunc (full : List Byte)
  /-- raise Timeout(stage) (60_exceptions.md R175). -/
  | raiseTimeout (stage : Stage)
  /-- raise WindowFault (R176). -/
  | raiseWindowFault
  deriving DecidableEq, Repr

end Sys2Proof
end

