-- ==== Sys2Proof/WellFormed.lean ====
section
/-! DEFINITION. Which operations are well formed: every operand lies in the range its rule gives it. The types of the
operands already hold every range but one: the byte string of TRUNC has at most 32 bytes (43_formatter.md R158). -/

namespace Sys2Proof

/-- OUT_BUF has 32 bytes (10_state.md R35, R42). -/
abbrev outBufBytes : Nat := 32

/-- The operands of an operation are in the ranges its rule states. -/
def wellFormed : Instr → Bool
  | .nop => true
  | .start => true
  | .init => true
  | .ack => true
  | .idle => true
  | .waitReadyPre => true
  | .drain => true
  | .trigger => true
  | .waitReadyPost => true
  | .read => true
  | .success => true
  | .timeout => true
  | .fault => true
  | .initState => true
  | .suspendExpire => true
  | .reset => true
  | .rdStatus => true
  | .rdData => true
  | .wrTrigger => true
  | .wrConfig _ _ => true
  | .isReadyClear _ => true
  | .isReadySet _ => true
  | .isNotEmptyClear _ => true
  | .isNotEmptySet _ => true
  | .extractLow12 _ => true
  | .extractShift4 _ => true
  | .extractMask4 _ => true
  | .scale _ => true
  | .divide _ => true
  | .convert _ => true
  | .rawOut _ => true
  | .format _ => true
  | .decimal _ => true
  | .diagLine _ => true
  | .lenientZeroValue => true
  | .lenientEmpty => true
  | .trunc full => decide (full.length ≤ outBufBytes)
  | .raiseTimeout _ => true
  | .raiseWindowFault => true

/-- The proposition form of `wellFormed`. -/
abbrev WellFormed (i : Instr) : Prop := wellFormed i = true

end Sys2Proof
end

