-- ==== Sys2Proof/Decode.lean ====
section
/-! DEFINITION. Decoding and encoding (30_encoding.md). No code of this block is memory-resident: a code is read from
the port CMD, from the register STATE, from the access descriptor, from a field of CFG, or from OUTCOME and STAGE (R70),
so the same bits mean different operations in different places. `Selector` names the place, `OpWord` is the place, the
code found there and the operand bytes, and `decode` is total on it and rejects by name. -/

namespace Sys2Proof

/-- The place a code is read from (30_encoding.md R70, R73, R79). The functions of R79 that no code selects have a
place of their own with an empty code. -/
inductive Selector where
  /-- Port CMD, 2 bits (R72). -/
  | cmd
  /-- Register STATE, 4 bits (R73). -/
  | state
  /-- The access descriptor dir size sel, 4 bits (R74). -/
  | bus
  /-- Pseudo-format EVENT, 1 bit: TICK is present while WAITING = 1 (R73). -/
  | tick
  /-- Pseudo-format EVENT, 1 bit: RST is asserted (R73). -/
  | rst
  /-- ISREADY, selected by READY_POL, 1 bit (R79). -/
  | readyPol
  /-- ISNOTEMPTY, selected by NE_POL, 1 bit (R79). -/
  | nePol
  /-- EXTRACT, selected by EXTRACT_MODE, 2 bits (R77, R79). -/
  | extractMode
  /-- FORMAT or RAWOUT, selected by OUT_MODE, 1 bit (R79). -/
  | outMode
  /-- DIAG, selected by STRICT in bit 1 and OUT_MODE in bit 0 (R79). -/
  | diag
  /-- SCALE, no code. -/
  | scale
  /-- DIVIDE, no code. -/
  | divide
  /-- CONVERT, no code. -/
  | convert
  /-- DECIMAL, no code. -/
  | decimal
  /-- TRUNC, no code. -/
  | trunc
  /-- Format RES: OUTCOME in bits 1:0 (R71); STAGE is placed in bits 3:2 (DESIGN CHOICE, log 13). -/
  | res
  deriving DecidableEq, Repr

/-- How many bits the code has in each place (R70, R71, R79). -/
def codeWidth : Selector → Nat
  | .cmd => 2
  | .state => 4
  | .bus => 4
  | .tick => 1
  | .rst => 1
  | .readyPol => 1
  | .nePol => 1
  | .extractMode => 2
  | .outMode => 1
  | .diag => 2
  | .scale => 0
  | .divide => 0
  | .convert => 0
  | .decimal => 0
  | .trunc => 0
  | .res => 4

/-- A place, the code found there (bit 0 least significant, R12), and the operand bytes, least significant first
(DESIGN CHOICE, log 13: the spec gives an operation operands but no operand bits). -/
structure OpWord where
  sel : Selector
  code : BitVec 4
  operands : List Byte
  deriving DecidableEq, Repr

/-- Why a word is no operation. -/
inductive DecodeError where
  /-- A bit is set above the width of the code in its place. -/
  | codeTooWide
  /-- STATE codes 0xA to 0xF (R81 a). -/
  | reservedState
  /-- A BUS descriptor other than the four of R74 (R81 c). -/
  | unusedDescriptor
  /-- EXTRACT_MODE = 11 (R81 b). -/
  | reservedExtractMode
  /-- EVENT with the event absent (R73). -/
  | eventAbsent
  /-- OUTCOME NONE or SUCCESS, or a STAGE that does not go with the OUTCOME: no raise (R79, 10_state.md R35). -/
  | notARaise
  /-- The operand bytes are not those the operation takes. -/
  | operandLength
  /-- A stage operand that is not 1, 2 or 3. -/
  | badStage
  deriving DecidableEq, Repr

/-- The 2-bit STAGE code of a stage (30_encoding.md R71). -/
def Stage.code : Stage → BitVec 2
  | .waitingForDevice => 1
  | .discardingData => 2
  | .waitingForData => 3

/-- The stage of a STAGE code; 0 is "none" (R71). -/
def stageOfCode (c : Nat) : Option Stage :=
  match c with
  | 1 => some .waitingForDevice
  | 2 => some .discardingData
  | 3 => some .waitingForData
  | _ => none

/-- An operation that takes no operand bytes. -/
def noOperand (i : Instr) : List Byte → Except DecodeError Instr
  | [] => .ok i
  | _ => .error .operandLength

/-- An operation whose operand is one byte. -/
def byteOperand (f : Byte → Instr) : List Byte → Except DecodeError Instr
  | [b] => .ok (f b)
  | _ => .error .operandLength

/-- The 16-bit word of two bytes, the low byte first. -/
def joinHalf (b0 b1 : Byte) : Half := b1 ++ b0

/-- The 64-bit word of eight bytes, the low byte first. -/
def joinLong (b0 b1 b2 b3 b4 b5 b6 b7 : Byte) : Long :=
  b7 ++ b6 ++ b5 ++ b4 ++ b3 ++ b2 ++ b1 ++ b0

/-- Byte k of a word, byte 0 the least significant. -/
def byteOf {n : Nat} (v : BitVec n) (k : Nat) : Byte := v.extractLsb' (8 * k) 8

/-- The two bytes of a 16-bit word, the low byte first. -/
def splitHalf (v : Half) : List Byte := [byteOf v 0, byteOf v 1]

/-- The eight bytes of a 64-bit word, the low byte first. -/
def splitLong (v : Long) : List Byte :=
  [byteOf v 0, byteOf v 1, byteOf v 2, byteOf v 3, byteOf v 4, byteOf v 5, byteOf v 6, byteOf v 7]

/-- An operation whose operand is a 16-bit word. -/
def halfOperand (f : Half → Instr) : List Byte → Except DecodeError Instr
  | [b0, b1] => .ok (f (joinHalf b0 b1))
  | _ => .error .operandLength

/-- An operation whose operand is a 64-bit word. -/
def longOperand (f : Long → Instr) : List Byte → Except DecodeError Instr
  | [b0, b1, b2, b3, b4, b5, b6, b7] => .ok (f (joinLong b0 b1 b2 b3 b4 b5 b6 b7))
  | _ => .error .operandLength

/-- WR_CONFIG: the offset, then the byte. -/
def configOperand : List Byte → Except DecodeError Instr
  | [b0, b1, b2, b3, b4, b5, b6, b7, b] => .ok (.wrConfig (joinLong b0 b1 b2 b3 b4 b5 b6 b7) b)
  | _ => .error .operandLength

/-- DIAGLINE: the stage in one byte. -/
def stageOperand (f : Stage → Instr) : List Byte → Except DecodeError Instr
  | [b] =>
    match stageOfCode b.toNat with
    | some st => .ok (f st)
    | none => .error .badStage
  | _ => .error .operandLength

/-- TRUNC: the byte string itself, at most 32 bytes (43_formatter.md R158). -/
def stringOperand (f : List Byte → Instr) (bs : List Byte) : Except DecodeError Instr :=
  if bs.length ≤ outBufBytes then .ok (f bs) else .error .operandLength

/-- The host commands (30_encoding.md R72): all four codes are used. -/
def decodeCmd (code : Nat) (ops : List Byte) : Except DecodeError Instr :=
  match code with
  | 0 => noOperand .nop ops
  | 1 => noOperand .start ops
  | 2 => noOperand .init ops
  | 3 => noOperand .ack ops
  | _ => .error .codeTooWide

/-- The state operations (R73); 0xA to 0xF are reserved (R81 a). -/
def decodeState (code : Nat) (ops : List Byte) : Except DecodeError Instr :=
  match code with
  | 0 => noOperand .idle ops
  | 1 => noOperand .waitReadyPre ops
  | 2 => noOperand .drain ops
  | 3 => noOperand .trigger ops
  | 4 => noOperand .waitReadyPost ops
  | 5 => noOperand .read ops
  | 6 => noOperand .success ops
  | 7 => noOperand .timeout ops
  | 8 => noOperand .fault ops
  | 9 => noOperand .initState ops
  | _ => .error .reservedState

/-- The Register Interface operations by descriptor dir size sel (R74): 0000, 0101, 1010, 1011. -/
def decodeBus (code : Nat) (ops : List Byte) : Except DecodeError Instr :=
  match code with
  | 0 => noOperand .rdStatus ops
  | 5 => noOperand .rdData ops
  | 10 => noOperand .wrTrigger ops
  | 11 => configOperand ops
  | _ => .error .unusedDescriptor

/-- An event that is present (code 1) selects its operation (R73). -/
def decodeEvent (i : Instr) (code : Nat) (ops : List Byte) : Except DecodeError Instr :=
  match code with
  | 0 => .error .eventAbsent
  | _ => noOperand i ops

/-- EXTRACT by EXTRACT_MODE (R77); 11 is reserved (R81 b). -/
def decodeExtract (code : Nat) (ops : List Byte) : Except DecodeError Instr :=
  match code with
  | 0 => halfOperand .extractLow12 ops
  | 1 => halfOperand .extractShift4 ops
  | 2 => halfOperand .extractMask4 ops
  | _ => .error .reservedExtractMode

/-- DIAG by STRICT (bit 1) and OUT_MODE (bit 0): STRICT = 1 is DIAGLINE in both output modes (R79, 43_formatter.md R150). -/
def decodeDiag (code : Nat) (ops : List Byte) : Except DecodeError Instr :=
  match code with
  | 0 => noOperand .lenientZeroValue ops
  | 1 => noOperand .lenientEmpty ops
  | _ => stageOperand .diagLine ops

/-- RES: OUTCOME 10 with a stage is RAISE_TIMEOUT, OUTCOME 11 with STAGE 00 is RAISE_WINDOWFAULT (R71, R79; 60_exceptions.md R170). -/
def decodeRes (code : Nat) (ops : List Byte) : Except DecodeError Instr :=
  match code with
  | 3 => noOperand .raiseWindowFault ops
  | 6 => noOperand (.raiseTimeout .waitingForDevice) ops
  | 10 => noOperand (.raiseTimeout .discardingData) ops
  | 14 => noOperand (.raiseTimeout .waitingForData) ops
  | _ => .error .notARaise

/-- One of two variants selected by a single bit (R79). -/
def decodeBit (clear set : List Byte → Except DecodeError Instr) (code : Nat) (ops : List Byte) :
    Except DecodeError Instr :=
  match code with
  | 0 => clear ops
  | _ => set ops

/-- The decoder of each place, on a code that has the place's width. -/
def decodeIn (sel : Selector) (code : Nat) (ops : List Byte) : Except DecodeError Instr :=
  match sel with
  | .cmd => decodeCmd code ops
  | .state => decodeState code ops
  | .bus => decodeBus code ops
  | .tick => decodeEvent .suspendExpire code ops
  | .rst => decodeEvent .reset code ops
  | .readyPol => decodeBit (byteOperand .isReadyClear) (byteOperand .isReadySet) code ops
  | .nePol => decodeBit (byteOperand .isNotEmptyClear) (byteOperand .isNotEmptySet) code ops
  | .extractMode => decodeExtract code ops
  | .outMode => decodeBit (halfOperand .rawOut) (longOperand .format) code ops
  | .diag => decodeDiag code ops
  | .scale => halfOperand .scale ops
  | .divide => longOperand .divide ops
  | .convert => halfOperand .convert ops
  | .decimal => longOperand .decimal ops
  | .trunc => stringOperand .trunc ops
  | .res => decodeRes code ops

/-- The operation a word selects, or the name of what is wrong with it. Total. -/
def decode (w : OpWord) : Except DecodeError Instr :=
  if w.code.toNat < 2 ^ codeWidth w.sel then decodeIn w.sel w.code.toNat w.operands else .error .codeTooWide

/-- The word of an operation, from the same tables (30_encoding.md R71 to R79). For DIAGLINE the OUT_MODE bit, which
its mask leaves free, is 0. -/
def encode : Instr → OpWord
  | .nop => ⟨.cmd, 0b00, []⟩
  | .start => ⟨.cmd, 0b01, []⟩
  | .init => ⟨.cmd, 0b10, []⟩
  | .ack => ⟨.cmd, 0b11, []⟩
  | .idle => ⟨.state, 0b0000, []⟩
  | .waitReadyPre => ⟨.state, 0b0001, []⟩
  | .drain => ⟨.state, 0b0010, []⟩
  | .trigger => ⟨.state, 0b0011, []⟩
  | .waitReadyPost => ⟨.state, 0b0100, []⟩
  | .read => ⟨.state, 0b0101, []⟩
  | .success => ⟨.state, 0b0110, []⟩
  | .timeout => ⟨.state, 0b0111, []⟩
  | .fault => ⟨.state, 0b1000, []⟩
  | .initState => ⟨.state, 0b1001, []⟩
  | .suspendExpire => ⟨.tick, 0b1, []⟩
  | .reset => ⟨.rst, 0b1, []⟩
  | .rdStatus => ⟨.bus, 0b0000, []⟩
  | .rdData => ⟨.bus, 0b0101, []⟩
  | .wrTrigger => ⟨.bus, 0b1010, []⟩
  | .wrConfig off b => ⟨.bus, 0b1011, splitLong off ++ [b]⟩
  | .isReadyClear s => ⟨.readyPol, 0b0, [s]⟩
  | .isReadySet s => ⟨.readyPol, 0b1, [s]⟩
  | .isNotEmptyClear s => ⟨.nePol, 0b0, [s]⟩
  | .isNotEmptySet s => ⟨.nePol, 0b1, [s]⟩
  | .extractLow12 w => ⟨.extractMode, 0b00, splitHalf w⟩
  | .extractShift4 w => ⟨.extractMode, 0b01, splitHalf w⟩
  | .extractMask4 w => ⟨.extractMode, 0b10, splitHalf w⟩
  | .scale r => ⟨.scale, 0, splitHalf r⟩
  | .divide sc => ⟨.divide, 0, splitLong sc⟩
  | .convert r => ⟨.convert, 0, splitHalf r⟩
  | .rawOut r => ⟨.outMode, 0b0, splitHalf r⟩
  | .format v => ⟨.outMode, 0b1, splitLong v⟩
  | .decimal v => ⟨.decimal, 0, splitLong v⟩
  | .diagLine st => ⟨.diag, 0b10, [st.code.zeroExtend 8]⟩
  | .lenientZeroValue => ⟨.diag, 0b00, []⟩
  | .lenientEmpty => ⟨.diag, 0b01, []⟩
  | .trunc full => ⟨.trunc, 0, full⟩
  | .raiseTimeout st => ⟨.res, st.code ++ 0b10#2, []⟩
  | .raiseWindowFault => ⟨.res, 0b0011, []⟩

/-- How many operand bytes an operation of the BUS format takes: only WR_CONFIG has any. -/
def busOperandBytes (code : Nat) : Nat := if code = 11 then 9 else 0

/-- A table word alone does not say which place it stands in, and the table gives several rows the same bits.
It is read as a code of STATE, which selects what the next engine step executes (R22, R70), and, where that code is
reserved, as a BUS descriptor with operand bytes of zero (DESIGN CHOICE, log 11). -/
def tableWord (w : Nat) : OpWord :=
  if w < 10 then ⟨.state, BitVec.ofNat 4 w, []⟩
  else ⟨.bus, BitVec.ofNat 4 w, List.replicate (busOperandBytes w) 0⟩

/-- The operation the decoder reads from a word numbered as spec/opcode_table.json numbers it; a code has at most four
bits, so a larger word is no operation. -/
def decodeTableWord (_nbits w : Nat) : Option Instr :=
  if w < 16 then
    match decode (tableWord w) with
    | .ok i => some i
    | .error _ => none
  else none

end Sys2Proof
end

