-- ==== Sys2Proof/Config.lean ====
section
/-! DEFINITION. The configuration record CFG of spec 00_scope.md R8 and the model's one free constant.
Which records are legal is Sys2Proof/Machine/Legality.lean; CFG_REF is Sys2Proof/Machine/Reference.lean. -/

namespace Sys2Proof

/-- OUT_MODE: 0 RAW, 1 FORMATTED (00_scope.md R8). -/
inductive OutMode where
  | raw
  | formatted
  deriving DecidableEq, Repr

/-- One entry of CFG_TABLE: an offset into the window and the byte written there (00_scope.md R8). -/
structure CfgEntry where
  offset : Nat
  byte : Byte
  deriving DecidableEq, Repr

/-- CFG, one field per row of the table of 00_scope.md R8. It is a parameter: no step changes it (R11). -/
structure Cfg where
  /-- AW, the width of an address. -/
  aw : Nat
  /-- OFF_STATUS. -/
  offStatus : Nat
  /-- OFF_DATA. -/
  offData : Nat
  /-- OFF_TRIGGER. -/
  offTrigger : Nat
  /-- READY_MASK. -/
  readyMask : Byte
  /-- READY_POL: true when the bit set means ready. -/
  readyPol : Bool
  /-- NE_MASK. -/
  neMask : Byte
  /-- NE_POL: true when the bit set means a sample is pending. -/
  nePol : Bool
  /-- TRIG_VALUE, the byte WR_TRIGGER writes. -/
  trigValue : Byte
  /-- BOUND, the most polls of one polling state. -/
  bound : Nat
  /-- POLL_INTERVAL; no rule reads it. -/
  pollInterval : Nat
  /-- EXTRACT_MODE: 0 LOW12, 1 SHIFT4, 2 MASK4, 3 reserved. -/
  extractMode : BitVec 2
  /-- P, the extra decimal digits. -/
  p : Nat
  /-- DIVISOR, legal only as 32752. -/
  divisor : Nat
  /-- RANGE_NUM, legal only as 10. -/
  rangeNum : Nat
  /-- ACC_W, 32 or 64. -/
  accW : Nat
  /-- OUT_MODE. -/
  outMode : OutMode
  /-- STRICT: true for the strict timeout report. -/
  strict : Bool
  /-- N_CFG, the number of entries of CFG_TABLE. -/
  nCfg : Nat
  /-- CFG_TABLE. -/
  cfgTable : List CfgEntry
  /-- BUS_ALLOWS_MISALIGNED. -/
  busAllowsMisaligned : Bool
  deriving DecidableEq, Repr

/-- The byte the device drives on the k-th byte it is asked for when State lists no answer for it: a FREE VALUE.
The spec puts no constraint on it (20_memory.md R62; 93_implementation_defined.md U4). It has no body, so nothing can
be proved of it (log 6). -/
opaque Config.deviceByte : Nat → Byte

end Sys2Proof
end

