-- ==== Sys2Proof/Machine/Reference.lean ====
section
/-! DEFINITION. CFG_REF, the reference configuration of 00_scope.md R8. -/

namespace Sys2Proof.Machine

/-- CFG_REF (R8, column CFG_REF). POLL_INTERVAL is unspecified there and no rule reads it; 1 stands for it
(DESIGN CHOICE, log 17). -/
def cfgRef : Cfg where
  aw := 32
  offStatus := 0x02
  offData := 0x00
  offTrigger := 0x03
  readyMask := 0x80
  readyPol := true
  neMask := 0x40
  nePol := true
  trigValue := 0x01
  bound := 25
  pollInterval := 1
  extractMode := 1
  p := 4
  divisor := 32752
  rangeNum := 10
  accW := 64
  outMode := .formatted
  strict := true
  nCfg := 3
  cfgTable := [⟨0x04, 0x00⟩, ⟨0x05, 0x00⟩, ⟨0x06, 0x00⟩]
  busAllowsMisaligned := false

end Sys2Proof.Machine
end

