-- ==== Sys2Proof/Machine/State.lean ====
section
/-! DEFINITION. The state of the machine as plain data: the registers of 10_state.md, the input ports of its R38, the
parameter CFG, and four fields of the model's own: the access trace (00_scope.md R16), what the environment will do
(the coming port values and the device's coming answers, log 3 and 6) and the result of the last operation executed on
its own (log 8). -/

namespace Sys2Proof.Machine

/-- Why the machine has no next state. -/
inductive Fault where
  /-- Raised by RD_DATA, READ and DRAIN: the 16-bit data read is at an odd address and BUS_ALLOWS_MISALIGNED = 0, so the
  access never completes and the engine is stuck (20_memory.md R56; 60_exceptions.md R173). Safe: the spec gives no successor. -/
  | dataReadStuck
  /-- Raised by an engine step while STATE holds a reserved code 0xA to 0xF (93_implementation_defined.md U2: stuck).
  Safe: no run from reset reaches it, and the spec gives no successor. -/
  | reservedState
  /-- Raised by INIT_STATE when CFGIDX is above N_CFG, so that CFG_TABLE has no such entry; no run from reset reaches it
  (log 16). Safe: the spec says nothing of it. -/
  | configIndexOutOfRange
  deriving DecidableEq, Repr

/-- Why the model does not accept a step. -/
inductive Refusal where
  /-- An instruction that has no meaning yet; raised by no arm of exec. Safe. -/
  | notModelled (mnemonic : String)
  /-- Raised by every operation: CFG is not legal (00_scope.md R9; 93_implementation_defined.md U1: refuse).
  Safe: no rule applies to an illegal CFG. -/
  | illegalConfig
  deriving DecidableEq, Repr

/-- The four operations of the Register Interface, as the trace names them (30_encoding.md R74). -/
inductive BusOp where
  | rdStatus
  | rdData
  | wrTrigger
  | wrConfig
  deriving DecidableEq, Repr

/-- One event of the access trace (00_scope.md R16): the operation, the byte address, and the value read or written
(a byte is held zero-extended). -/
structure Access where
  op : BusOp
  addr : Nat
  value : Half
  deriving DecidableEq, Repr

/-- The register OUTCOME (10_state.md R35). -/
inductive ResultCode where
  /-- 0 NONE. -/
  | none
  /-- 1 SUCCESS. -/
  | success
  /-- 2 TIMEOUT. -/
  | timeout
  /-- 3 FAULT. -/
  | fault
  deriving DecidableEq, Repr

/-- The registers of the block (10_state.md R22, R24, R35). -/
structure Regs where
  /-- STATE, 4 bits. -/
  state : StateCode
  /-- RETRY, failed checks so far in the current polling state. -/
  retry : Byte
  /-- STATUS, the status byte of the most recent poll; no rule reads it (R26). -/
  status : Byte
  /-- SAMPLE, the data word read in READ. -/
  sample : Half
  /-- RAW, the extracted sample. -/
  raw : Half
  /-- SCALED. -/
  scaled : Long
  /-- VOLT. -/
  volt : Long
  /-- CFGIDX, index of the next CFG_TABLE entry in INIT. -/
  cfgIdx : Byte
  /-- L_BASE, a natural below 2^AW (log 7). -/
  lBase : Nat
  /-- L_LEN, a natural below 2^(AW+1) (log 7). -/
  lLen : Nat
  /-- L_CAP. -/
  lCap : Half
  /-- WAITING. -/
  waiting : Bool
  /-- OUTCOME. -/
  outcome : ResultCode
  /-- STAGE; none is code 0. -/
  stage : Option Stage
  /-- VALUE. -/
  value : Long
  /-- OUT_LEN, 6 bits. -/
  outLen : BitVec 6
  /-- OUT_BUF, 32 bytes (kept so by every operation). -/
  outBuf : List Byte
  deriving DecidableEq, Repr

/-- The input ports (10_state.md R38). -/
structure Ports where
  /-- RST is asserted. -/
  rst : Bool
  /-- A host-command step is requested, with this code on CMD. -/
  cmd : Option (BitVec 2)
  /-- The TICK event is present. -/
  tick : Bool
  /-- WIN_BASE; the port has AW wires (log 7). -/
  winBase : Nat
  /-- WIN_LEN; the port has AW+1 wires (log 7). -/
  winLen : Nat
  /-- WIN_VALID. -/
  winValid : Bool
  /-- CAP. -/
  cap : Half
  deriving DecidableEq, Repr

/-- What the device will answer (20_memory.md R62): a queue for the status reads, a queue for the data reads (the byte it
drives at the lower address, then the byte at the higher), and the number of free bytes drawn so far. -/
structure Device where
  status : List Byte
  data : List (Byte × Byte)
  draws : Nat
  deriving DecidableEq, Repr

/-- The result of an operation executed on its own. -/
inductive Result where
  | nothing
  /-- A status byte. -/
  | status (s : Byte)
  /-- A data word. -/
  | data (w : Half)
  /-- A truth value. -/
  | truth (b : Bool)
  /-- An unsigned number. -/
  | number (n : Nat)
  /-- A byte string. -/
  | bytes (bs : List Byte)
  deriving DecidableEq, Repr

/-- The state of the machine. -/
structure State where
  /-- CFG, a parameter: no step changes it (00_scope.md R11, log 1). -/
  cfg : Cfg
  /-- The registers of the block. -/
  regs : Regs
  /-- The input ports as they stand at the coming step. -/
  ports : Ports
  /-- The input ports at the steps after it, oldest first (log 3). -/
  future : List Ports
  /-- The device's coming answers (log 6). -/
  dev : Device
  /-- The access trace, in issue order (00_scope.md R16). -/
  trace : List Access
  /-- The result of the last operation executed on its own (log 8). -/
  ret : Result
  deriving DecidableEq, Repr

/-- The reset value of every register (10_state.md R46). -/
def Regs.reset : Regs where
  state := 0x0
  retry := 0
  status := 0
  sample := 0
  raw := 0
  scaled := 0
  volt := 0
  cfgIdx := 0
  lBase := 0
  lLen := 0
  lCap := 0
  waiting := false
  outcome := .none
  stage := .none
  value := 0
  outLen := 0
  outBuf := List.replicate outBufBytes 0

/-- Input ports at which nothing is requested and no window is claimed (log 5). -/
def Ports.unclaimed : Ports where
  rst := false
  cmd := none
  tick := true
  winBase := 0
  winLen := 0
  winValid := false
  cap := 0

/-- A device of which no answer is known yet (log 6). -/
def Device.unknown : Device := ⟨[], [], 0⟩

/-- The machine right after reset: the registers of R46, an empty trace, CFG_REF for the parameter (log 1), and an
environment of which nothing is known (log 5, 6). -/
def State.reset : State where
  cfg := cfgRef
  regs := Regs.reset
  ports := Ports.unclaimed
  future := []
  dev := Device.unknown
  trace := []
  ret := .nothing

end Sys2Proof.Machine
end

