-- ==== Sys2Proof/Machine/Flags.lean ====
section
/-! DEFINITION. The flags: the two predicates on a status byte (00_scope.md R17, 42_scaler.md R130, R137), the derived
outputs BUSY and DONE (10_state.md R32, R34), the observation ports (R38) and the outcome as the source's type (R36). -/

namespace Sys2Proof.Machine

/-- The STATE codes by name (10_state.md R22). -/
abbrev stIdle : StateCode := 0x0#4
/-- WAIT_READY (pre). -/
abbrev stWaitReadyPre : StateCode := 0x1#4
/-- DRAIN. -/
abbrev stDrain : StateCode := 0x2#4
/-- TRIGGER. -/
abbrev stTrigger : StateCode := 0x3#4
/-- WAIT_READY (post). -/
abbrev stWaitReadyPost : StateCode := 0x4#4
/-- READ. -/
abbrev stRead : StateCode := 0x5#4
/-- SUCCESS. -/
abbrev stSuccess : StateCode := 0x6#4
/-- TIMEOUT. -/
abbrev stTimeout : StateCode := 0x7#4
/-- FAULT. -/
abbrev stFault : StateCode := 0x8#4
/-- INIT. -/
abbrev stInit : StateCode := 0x9#4

/-- The masked bit is set; the comparison is made on the masked value (42_scaler.md R130). -/
def bitSet (mask s : Byte) : Bool := (s &&& mask) != 0#8

/-- isReady(s) of R17. -/
def isReady (c : Cfg) (s : Byte) : Bool := bitSet c.readyMask s == c.readyPol

/-- isNotEmpty(s) of R17. -/
def isNotEmpty (c : Cfg) (s : Byte) : Bool := bitSet c.neMask s == c.nePol

/-- ISREADY.CLEAR: ready when the masked bit is clear (R130). -/
def readyWhenClear (c : Cfg) (s : Byte) : Bool := !bitSet c.readyMask s

/-- ISREADY.SET: ready when the masked bit is set (R130). -/
def readyWhenSet (c : Cfg) (s : Byte) : Bool := bitSet c.readyMask s

/-- ISNOTEMPTY.CLEAR: a sample is pending when the masked bit is clear (R137). -/
def pendingWhenClear (c : Cfg) (s : Byte) : Bool := !bitSet c.neMask s

/-- ISNOTEMPTY.SET: a sample is pending when the masked bit is set (R137). -/
def pendingWhenSet (c : Cfg) (s : Byte) : Bool := bitSet c.neMask s

/-- BUSY (R32). -/
def busy (r : Regs) : Bool := r.state != stIdle

/-- DONE (R34). -/
def done (r : Regs) : Bool := r.state == stSuccess || r.state == stTimeout || r.state == stFault

/-- OUTCOME as its 2-bit code (30_encoding.md R71). -/
def outcomeCode : ResultCode → BitVec 2
  | .none => 0
  | .success => 1
  | .timeout => 2
  | .fault => 3

/-- STAGE as its 2-bit code (30_encoding.md R71). -/
def stageCode : Option Stage → BitVec 2
  | none => 0
  | some .waitingForDevice => 1
  | some .discardingData => 2
  | some .waitingForData => 3

/-- The output ports (10_state.md R38), the bus apart. -/
structure Outputs where
  busy : Bool
  done : Bool
  outcome : BitVec 2
  stage : BitVec 2
  value : Long
  outLen : BitVec 6
  outBuf : List Byte
  stateO : StateCode
  statusO : Byte
  retryO : Byte
  deriving DecidableEq, Repr

/-- What the output ports show (R38). -/
def outputs (r : Regs) : Outputs where
  busy := busy r
  done := done r
  outcome := outcomeCode r.outcome
  stage := stageCode r.stage
  value := r.value
  outLen := r.outLen
  outBuf := r.outBuf
  stateO := r.state
  statusO := r.status
  retryO := r.retry

/-- AcquisitionOutcome, with the third constructor the spec adds (10_state.md R36; 90_conflicts.md C3). -/
inductive AcquisitionOutcome where
  | success (value : Long)
  | timeout (stage : Stage)
  | windowFault
  deriving DecidableEq, Repr

/-- The outcome read off the result registers (R36); none while no operation has ended. -/
def acquisitionOutcome (r : Regs) : Option AcquisitionOutcome :=
  match r.outcome, r.stage with
  | .none, _ => none
  | .success, _ => some (.success r.value)
  | .timeout, some st => some (.timeout st)
  | .timeout, none => none
  | .fault, _ => some .windowFault

end Sys2Proof.Machine
end

