-- ==== Sys2Proof/Machine/Formatter.lean ====
section
/-! DEFINITION. The output formatter (43_formatter.md R150 to R161): pure functions on byte strings. Character codes are
ASCII (R161). -/

namespace Sys2Proof.Machine

/-- '0'. -/
abbrev chZero : Byte := 0x30
/-- '.'. -/
abbrev chStop : Byte := 0x2E
/-- The suffix " V" and the line terminator (R151). -/
def unitSuffix : List Byte := [0x20, 0x56, 0x0A]

/-- The byte of a digit d < 10 (R152). -/
def digitByte (d : Nat) : Byte := BitVec.ofNat 8 (0x30 + d)

/-- The decimal digits of v, most significant first, at most n of them. -/
def decimalDigits : Nat → Nat → List Byte
  | 0, _ => []
  | n + 1, v => if v < 10 then [digitByte v] else decimalDigits n (v / 10) ++ [digitByte (v % 10)]

/-- DECIMAL(v) for v below 2^64, which has at most 20 digits (R152). -/
def decimal (v : Long) : List Byte := decimalDigits 20 v.toNat

/-- Left-pad with '0' to at least n characters (R151). -/
def padLeft (n : Nat) (d : List Byte) : List Byte := List.replicate (n - d.length) chZero ++ d

/-- FORMAT(v, P) (R151). -/
def format (p : Nat) (v : Long) : List Byte :=
  if p = 0 then decimal v ++ unitSuffix
  else
    let d := padLeft (p + 1) (decimal v)
    d.take (d.length - p) ++ [chStop] ++ d.drop (d.length - p) ++ unitSuffix

/-- RAWOUT(r): two bytes, the low byte first (R155). -/
def rawOut (r : Half) : List Byte := [r.extractLsb' 0 8, r.extractLsb' 8 8]

/-- "timeout " (R156). -/
def diagHead : List Byte := [0x74, 0x69, 0x6D, 0x65, 0x6F, 0x75, 0x74, 0x20]

/-- The name of a stage (R156): "waiting-for-device", "discarding-data", "waiting-for-data". -/
def stageName : Stage → List Byte
  | .waitingForDevice =>
    [0x77, 0x61, 0x69, 0x74, 0x69, 0x6E, 0x67, 0x2D, 0x66, 0x6F, 0x72, 0x2D, 0x64, 0x65, 0x76, 0x69, 0x63, 0x65]
  | .discardingData =>
    [0x64, 0x69, 0x73, 0x63, 0x61, 0x72, 0x64, 0x69, 0x6E, 0x67, 0x2D, 0x64, 0x61, 0x74, 0x61]
  | .waitingForData =>
    [0x77, 0x61, 0x69, 0x74, 0x69, 0x6E, 0x67, 0x2D, 0x66, 0x6F, 0x72, 0x2D, 0x64, 0x61, 0x74, 0x61]

/-- DIAGLINE(stage) (R156). -/
def diagLine (st : Stage) : List Byte := diagHead ++ stageName st ++ [0x0A]

/-- LENIENT(OUT_MODE) (R157). -/
def lenient : OutMode → List Byte
  | .formatted => []
  | .raw => [0x00, 0x00]

/-- The full byte string of a timeout (R150): by STRICT, then by OUT_MODE. -/
def timeoutReport (c : Cfg) (st : Stage) : List Byte := if c.strict then diagLine st else lenient c.outMode

/-- The full byte string of a successful acquisition (R150). -/
def successReport (c : Cfg) (r : Half) (v : Long) : List Byte :=
  match c.outMode with
  | .formatted => format c.p v
  | .raw => rawOut r

/-- How many bytes TRUNC delivers: min(len(full), L_CAP), and OUT_BUF has 32 (R158: "L_CAP >= 32 behaves as L_CAP = 32"). -/
def truncLen (full : List Byte) (cap : Half) : Nat := min full.length (min cap.toNat outBufBytes)

/-- OUT_BUF after TRUNC: the bytes delivered, then zeros (R158). -/
def truncBuf (full : List Byte) (cap : Half) : List Byte :=
  full.take (truncLen full cap) ++ List.replicate (outBufBytes - truncLen full cap) 0

end Sys2Proof.Machine
end

