-- ==== Sys2Proof/Machine/Legality.lean ====
section
/-! DEFINITION. Which configuration records are legal: 00_scope.md R9, clause by clause, and the column "legal values" of R8. -/

namespace Sys2Proof.Machine

/-- Exactly one bit of the mask is set. -/
abbrev OneBit (m : Byte) : Prop := m ∈ [0x01#8, 0x02#8, 0x04#8, 0x08#8, 0x10#8, 0x20#8, 0x40#8, 0x80#8]

/-- RMAX(EXTRACT_MODE): the largest sample the extractor delivers (R9 e). -/
def rmax (mode : BitVec 2) : Nat := if mode = 2 then 65520 else 4095

/-- The byte offsets the configuration reaches (R9 g). -/
def cfgOffsets (c : Cfg) : List Nat :=
  c.offStatus :: (c.offData + 1) :: c.offTrigger :: c.cfgTable.map CfgEntry.offset

/-- R9 (a): READY_MASK and NE_MASK name two different single bits. -/
abbrev MasksLegal (c : Cfg) : Prop := OneBit c.readyMask ∧ OneBit c.neMask ∧ c.readyMask ≠ c.neMask

/-- R9 (e): the product fits the integer width used. -/
abbrev ScaleFits (c : Cfg) : Prop := rmax c.extractMode * 10 * 10 ^ c.p ≤ 2 ^ c.accW - 1

/-- R9 (f): the status byte and the data word do not overlap. -/
abbrev NoOverlap (c : Cfg) : Prop := c.offStatus < c.offData ∨ c.offData + 2 ≤ c.offStatus

/-- CfgLegal of R9: clauses (a) to (h). -/
abbrev ClausesLegal (c : Cfg) : Prop :=
  MasksLegal c ∧ c.trigValue ≠ 0 ∧ (1 ≤ c.bound ∧ c.bound ≤ 255) ∧ c.extractMode ≠ 3 ∧ ScaleFits c ∧ NoOverlap c ∧
    (∀ off ∈ cfgOffsets c, off < 2 ^ c.aw) ∧ (c.divisor = 32752 ∧ c.rangeNum = 10)

/-- The legal values of R8 that no clause of R9 repeats. -/
abbrev FieldsLegal (c : Cfg) : Prop :=
  (1 ≤ c.aw ∧ c.aw ≤ 64) ∧ 0 < c.pollInterval ∧ (c.accW = 32 ∨ c.accW = 64) ∧ c.nCfg ≤ 255 ∧
    c.cfgTable.length = c.nCfg

/-- The configurations the model accepts: the field ranges of R8 and the clauses of R9. -/
abbrev CfgLegal (c : Cfg) : Prop := FieldsLegal c ∧ ClausesLegal c

end Sys2Proof.Machine
end

