-- ==== Sys2Proof/Machine/Operands.lean ====
section
/-! DEFINITION. The operand forms: the input ports as they are sampled (10_state.md R38, R40), the address of an access
(20_memory.md R50; 30_encoding.md R75), the window precondition (20_memory.md R51), the alignment of the data read
(R56) and the byte order of a data word (R54). -/

namespace Sys2Proof.Machine

/-- WIN_BASE as sampled: the port has AW wires (log 7). -/
def sampledBase (s : State) : Nat := s.ports.winBase % 2 ^ s.cfg.aw

/-- WIN_LEN as sampled: the port has AW + 1 wires (log 7). -/
def sampledLen (s : State) : Nat := s.ports.winLen % 2 ^ (s.cfg.aw + 1)

/-- Every (offset, size) of the list lies in a window of the given length (R51). -/
abbrev Contained (len : Nat) (offs : List (Nat × Nat)) : Prop := ∀ e ∈ offs, e.1 + e.2 ≤ len

/-- WindowOK(base, len, valid, offs) (R51). -/
abbrev WindowOK (aw base len : Nat) (valid : Bool) (offs : List (Nat × Nat)) : Prop :=
  valid = true ∧ base ≠ 0 ∧ len ≠ 0 ∧ base + len ≤ 2 ^ aw ∧ Contained len offs

/-- The registers an acquisition reaches, with their sizes (R51, for START). -/
def acquireOffs (c : Cfg) : List (Nat × Nat) := [(c.offStatus, 1), (c.offData, 2), (c.offTrigger, 1)]

/-- The registers the attach-time configuration reaches (R51, for INIT). -/
def initOffs (c : Cfg) : List (Nat × Nat) := c.cfgTable.map fun e => (e.offset, 1)

/-- The address of an access, in the naturals (R50). -/
def effAddr (s : State) (off : Nat) : Nat := s.regs.lBase + off

/-- The data read has no defined completion (R56). -/
def dataReadStuck (s : State) : Bool :=
  !s.cfg.busAllowsMisaligned && effAddr s s.cfg.offData % 2 == 1

/-- The 16-bit value of a data read: the byte at the lower address is bits 7:0 (R54). -/
def dataWord (answer : Byte × Byte) : Half := answer.2 ++ answer.1

/-- The number of bytes of an access (20_memory.md R52, R58). -/
def BusOp.size : BusOp → Nat
  | .rdStatus => 1
  | .rdData => 2
  | .wrTrigger => 1
  | .wrConfig => 1

/-- The BUS descriptor dir size sel of an access (30_encoding.md R74). -/
def BusOp.descriptor : BusOp → BitVec 4
  | .rdStatus => 0b0000
  | .rdData => 0b0101
  | .wrTrigger => 0b1010
  | .wrConfig => 0b1011

end Sys2Proof.Machine
end

