-- ==== Sys2Proof/Machine/Scaler.lean ====
section
/-! DEFINITION. The fixed-point scaler (42_scaler.md R131 to R135): pure functions, unsigned, exact in the naturals (R138). -/

namespace Sys2Proof.Machine

/-- EXTRACT with LOW12: w[11:0] (R132). -/
def extractLow12 (w : Half) : Half := w &&& 0x0FFF

/-- EXTRACT with SHIFT4: w[15:4] (R132). -/
def extractShift4 (w : Half) : Half := w >>> 4

/-- EXTRACT with MASK4: w[15:4] followed by four zeros (R132). -/
def extractMask4 (w : Half) : Half := w &&& 0xFFF0

/-- EXTRACT by EXTRACT_MODE (R132, 30_encoding.md R77). Code 3 is reserved: a configuration that holds it is refused
before any operation runs. -/
def extract (mode : BitVec 2) (w : Half) : Half :=
  if mode = 0 then extractLow12 w else if mode = 1 then extractShift4 w else extractMask4 w

/-- SCALE(r) = r * 10 * 10^P (R133). -/
def scale (p r : Nat) : Nat := r * 10 * 10 ^ p

/-- DIVIDE(sc) = sc / 32752, truncating (R134). -/
def divide (sc : Nat) : Nat := sc / 32752

/-- CONVERT(r) = DIVIDE(SCALE(r)) (R135). -/
def convert (p r : Nat) : Nat := divide (scale p r)

end Sys2Proof.Machine
end

