-- ==== Sys2Proof/Machine/Ops.lean ====
section
/-! DEFINITION. The shared operations: named updates of State, the bus primitives MemRead and MemWrite (00_scope.md R14,
20_memory.md R52 to R62), the enabling conditions, the outcome of a poll, and taking and leaving an exceptional state
(60_exceptions.md R175, R176, R180). -/

namespace Sys2Proof.Machine

/-- What one operation answers. -/
abbrev StepOutcome := Host.Outcome State Fault Refusal

/-- The registers replaced. -/
def State.setRegs (s : State) (r : Regs) : State := { s with regs := r }

/-- The device's answers replaced. -/
def State.setDev (s : State) (d : Device) : State := { s with dev := d }

/-- The input ports replaced, and what they will be after. -/
def State.setPorts (s : State) (p : Ports) (f : List Ports) : State := { s with ports := p, future := f }

/-- The result of an operation executed on its own. -/
def State.setRet (s : State) (v : Result) : State := { s with ret := v }

/-- One access recorded at the end of the trace (00_scope.md R16, 20_memory.md R57). -/
def State.logAccess (s : State) (a : Access) : State := { s with trace := s.trace ++ [a] }

/-! ### The device as oracle (20_memory.md R62): a queue of answers, then free values (log 6) -/

/-- The byte the device answers to the next status read. -/
def Device.statusAnswer (d : Device) : Byte :=
  match d.status with
  | a :: _ => a
  | [] => Config.deviceByte d.draws

/-- The device after it has answered a status read. -/
def Device.afterStatus (d : Device) : Device :=
  match d.status with
  | _ :: rest => { d with status := rest }
  | [] => { d with draws := d.draws + 1 }

/-- The two bytes the device drives at the next data read, lower address first. -/
def Device.dataAnswer (d : Device) : Byte × Byte :=
  match d.data with
  | a :: _ => a
  | [] => (Config.deviceByte d.draws, Config.deviceByte (d.draws + 1))

/-- The device after it has answered a data read. -/
def Device.afterData (d : Device) : Device :=
  match d.data with
  | _ :: rest => { d with data := rest }
  | [] => { d with draws := d.draws + 2 }

/-! ### The four bus accesses (40_register_interface.md R90 to R93) -/

/-- The value the next readStatus() returns. -/
def statusValue (s : State) : Byte := s.dev.statusAnswer

/-- The event of the next readStatus(): one byte read at L_BASE + OFF_STATUS. -/
def statusAccess (s : State) : Access := ⟨.rdStatus, effAddr s s.cfg.offStatus, (statusValue s).zeroExtend 16⟩

/-- readStatus(), its effect (R90). -/
def readStatus (s : State) : State := (s.setDev s.dev.afterStatus).logAccess (statusAccess s)

/-- The value the next readData() returns. -/
def dataValue (s : State) : Half := dataWord s.dev.dataAnswer

/-- The event of the next readData(): one two-byte read at L_BASE + OFF_DATA. -/
def dataAccess (s : State) : Access := ⟨.rdData, effAddr s s.cfg.offData, dataValue s⟩

/-- readData(), its effect when the access completes (R91). -/
def readData (s : State) : State := (s.setDev s.dev.afterData).logAccess (dataAccess s)

/-- The event of writeTrigger(TRIG_VALUE): one byte written at L_BASE + OFF_TRIGGER. -/
def triggerAccess (s : State) : Access := ⟨.wrTrigger, effAddr s s.cfg.offTrigger, s.cfg.trigValue.zeroExtend 16⟩

/-- writeTrigger(TRIG_VALUE) (R92); a write always completes (20_memory.md R62). -/
def writeTrigger (s : State) : State := s.logAccess (triggerAccess s)

/-- The event of writeConfig(off, b): one byte written at L_BASE + off. -/
def configAccess (s : State) (off : Nat) (b : Byte) : Access := ⟨.wrConfig, effAddr s off, b.zeroExtend 16⟩

/-- writeConfig(off, b) (R93). -/
def writeConfig (off : Nat) (b : Byte) (s : State) : State := s.logAccess (configAccess s off b)

/-! ### When an operation has its effect -/

/-- No operation runs under an illegal configuration (00_scope.md R9; 93_implementation_defined.md U1). -/
def guardLegal (s : State) (k : StepOutcome) : StepOutcome :=
  if CfgLegal s.cfg then k else .refused .illegalConfig

/-- An engine step is enabled when STATE selects it and WAITING = 0; where it is not enabled nothing changes
(41_acquisition_fsm.md section 2; 10_state.md R33). -/
def engineOp (code : StateCode) (s : State) (k : StepOutcome) : StepOutcome :=
  guardLegal s (if s.regs.state = code ∧ s.regs.waiting = false then k else .next s)

/-- A host command has its effect only where it is accepted (41_acquisition_fsm.md R103). -/
def hostCommand (accepted : Bool) (s : State) (r : Regs) : StepOutcome :=
  guardLegal s (.next (if accepted then s.setRegs r else s))

/-- A function returns its result and writes no register (42_scaler.md, 43_formatter.md). -/
def returning (s : State) (v : Result) : StepOutcome := guardLegal s (.next (s.setRet v))

/-! ### Ending an operation (60_exceptions.md R170 to R176; 41_acquisition_fsm.md R108) -/

/-- TRUNC and the write of the output registers (43_formatter.md R158). -/
def writeOutput (full : List Byte) (r : Regs) : Regs :=
  { r with outLen := BitVec.ofNat 6 (truncLen full r.lCap), outBuf := truncBuf full r.lCap }

/-- Entering a terminal state: the five result registers and STATE. There is no vector: the target is fixed (R175). -/
def endOperation (code : ResultCode) (stage : Option Stage) (value : Long) (full : List Byte) (target : StateCode)
    (r : Regs) : Regs :=
  { writeOutput full r with outcome := code, stage := stage, value := value, state := target }

/-- raise Timeout(stage) (R175): STATUS and RETRY keep the values the failing poll wrote. -/
def raiseTimeout (c : Cfg) (st : Stage) (r : Regs) : Regs :=
  { endOperation .timeout (some st) 0 (timeoutReport c st) stTimeout r with waiting := false }

/-- raise WindowFault (R176): no bytes are delivered (43_formatter.md R160). -/
def raiseWindowFault (r : Regs) : Regs := endOperation .fault none 0 [] stFault r

/-- The return from a terminal state: STATE <- IDLE, nothing else (41_acquisition_fsm.md R102; 60_exceptions.md R180). -/
def returnToIdle (r : Regs) : Regs := { r with state := stIdle }

/-! ### Beginning an operation (41_acquisition_fsm.md R100, R101) -/

/-- The clearing and latching of START and INIT: every working and result register, then L_BASE, L_LEN, L_CAP. -/
def beginOperation (base len : Nat) (cap : Half) (r : Regs) : Regs :=
  { r with
    retry := 0, status := 0, sample := 0, raw := 0, scaled := 0, volt := 0, cfgIdx := 0, waiting := false,
    outcome := .none, stage := none, value := 0, outLen := 0, outBuf := List.replicate outBufBytes 0,
    lBase := base, lLen := len, lCap := cap }

/-- The window check comes first and alone: either the working state, or WindowFault (R100, R101; 60_exceptions.md R179 b). -/
def enterOrFault (s : State) (offs : List (Nat × Nat)) (target : StateCode) (r : Regs) : Regs :=
  if WindowOK s.cfg.aw (sampledBase s) (sampledLen s) s.ports.winValid offs then { r with state := target }
  else raiseWindowFault r

/-! ### The outcome of a poll (41_acquisition_fsm.md R104, R105, R107) -/

/-- A passed check: RETRY <- 0 and the success successor. -/
def pollPassed (next : StateCode) (r : Regs) : Regs := { r with retry := 0, state := next }

/-- A failed check: one more failed check counted; at BOUND the timeout, otherwise the suspend. The callers test success
before this bound test (60_exceptions.md R179 d). -/
def pollFailed (c : Cfg) (st : Stage) (r : Regs) : Regs :=
  if r.retry.toNat + 1 = c.bound then raiseTimeout c st { r with retry := r.retry + 1 }
  else { r with retry := r.retry + 1, waiting := true }

end Sys2Proof.Machine
end

