-- ==== Sys2Proof/Machine/Commands.lean ====
section
/-! DEFINITION. The host commands (41_acquisition_fsm.md R100 to R103). -/

namespace Sys2Proof.Machine

/-- NOP: no effect in any state (R103). -/
def execNop (s : State) : StepOutcome := guardLegal s (.next s)

/-- START, accepted in IDLE only (R100, R103). -/
def execStart (s : State) : StepOutcome :=
  hostCommand (s.regs.state == stIdle) s
    (enterOrFault s (acquireOffs s.cfg) stWaitReadyPre
      (beginOperation (sampledBase s) (sampledLen s) s.ports.cap s.regs))

/-- INIT, accepted in IDLE only (R101, R103). -/
def execInit (s : State) : StepOutcome :=
  hostCommand (s.regs.state == stIdle) s
    (enterOrFault s (initOffs s.cfg) stInit (beginOperation (sampledBase s) (sampledLen s) 0 s.regs))

/-- ACK, accepted in SUCCESS, TIMEOUT and FAULT only (R102, R103). -/
def execAck (s : State) : StepOutcome := hostCommand (done s.regs) s (returnToIdle s.regs)

end Sys2Proof.Machine
end

