-- ==== Sys2Proof/Machine/Events.lean ====
section
/-! DEFINITION. The two event steps: the suspend expiry (41_acquisition_fsm.md R114) and reset (70_reset_and_hazards.md
R200 to R203). -/

namespace Sys2Proof.Machine

/-- SUSPEND_EXPIRE: WAITING <- 0, every other register keeps its value (R114); with WAITING = 0 nothing changes. -/
def execSuspendExpire (s : State) : StepOutcome :=
  guardLegal s (.next (s.setRegs { s.regs with waiting := false }))

/-- RESET: every register takes its reset value, whatever the state; no bus access, the trace stays (R200). -/
def execReset (s : State) : StepOutcome := guardLegal s (.next (s.setRegs Regs.reset))

end Sys2Proof.Machine
end

