-- ==== Sys2Proof/Machine/Functions.lean ====
section
/-! DEFINITION. The datapath functions executed on their own (30_encoding.md R79; 42_scaler.md R130 to R137;
43_formatter.md R151 to R158). Each is pure and returns its result to the caller, here to `ret` (log 8), but for TRUNC,
which writes the output registers. A variant row computes its own variant (log 9); masks, P, OUT_MODE and L_CAP are read
from CFG and the registers as the rules say. -/

namespace Sys2Proof.Machine

/-- ISREADY.CLEAR (R130). -/
def execIsReadyClear (b : Byte) (s : State) : StepOutcome := returning s (.truth (readyWhenClear s.cfg b))

/-- ISREADY.SET (R130). -/
def execIsReadySet (b : Byte) (s : State) : StepOutcome := returning s (.truth (readyWhenSet s.cfg b))

/-- ISNOTEMPTY.CLEAR (R137). -/
def execIsNotEmptyClear (b : Byte) (s : State) : StepOutcome := returning s (.truth (pendingWhenClear s.cfg b))

/-- ISNOTEMPTY.SET (R137). -/
def execIsNotEmptySet (b : Byte) (s : State) : StepOutcome := returning s (.truth (pendingWhenSet s.cfg b))

/-- EXTRACT.LOW12 (R132). -/
def execExtractLow12 (w : Half) (s : State) : StepOutcome := returning s (.number (extractLow12 w).toNat)

/-- EXTRACT.SHIFT4 (R132). -/
def execExtractShift4 (w : Half) (s : State) : StepOutcome := returning s (.number (extractShift4 w).toNat)

/-- EXTRACT.MASK4 (R132). -/
def execExtractMask4 (w : Half) (s : State) : StepOutcome := returning s (.number (extractMask4 w).toNat)

/-- SCALE (R133). -/
def execScale (r : Half) (s : State) : StepOutcome := returning s (.number (scale s.cfg.p r.toNat))

/-- DIVIDE (R134). -/
def execDivide (sc : Long) (s : State) : StepOutcome := returning s (.number (divide sc.toNat))

/-- CONVERT (R135). -/
def execConvert (r : Half) (s : State) : StepOutcome := returning s (.number (convert s.cfg.p r.toNat))

/-- RAWOUT (R155). -/
def execRawOut (r : Half) (s : State) : StepOutcome := returning s (.bytes (rawOut r))

/-- FORMAT (R151). -/
def execFormat (v : Long) (s : State) : StepOutcome := returning s (.bytes (format s.cfg.p v))

/-- DECIMAL (R152). -/
def execDecimal (v : Long) (s : State) : StepOutcome := returning s (.bytes (decimal v))

/-- DIAGLINE (R156). -/
def execDiagLine (st : Stage) (s : State) : StepOutcome := returning s (.bytes (diagLine st))

/-- LENIENT.ZEROVALUE (R157). -/
def execLenientZeroValue (s : State) : StepOutcome := returning s (.bytes (lenient .raw))

/-- LENIENT.EMPTY (R157). -/
def execLenientEmpty (s : State) : StepOutcome := returning s (.bytes (lenient .formatted))

/-- TRUNC and the write of the output registers (R158). -/
def execTrunc (full : List Byte) (s : State) : StepOutcome :=
  guardLegal s (.next (s.setRegs (writeOutput full s.regs)))

end Sys2Proof.Machine
end

