-- ==== Sys2Proof/Machine/Raises.lean ====
section
/-! DEFINITION. The two raises executed on their own (60_exceptions.md R175, R176). -/

namespace Sys2Proof.Machine

/-- RAISE_TIMEOUT (R175). -/
def execRaiseTimeout (st : Stage) (s : State) : StepOutcome :=
  guardLegal s (.next (s.setRegs (raiseTimeout s.cfg st s.regs)))

/-- RAISE_WINDOWFAULT (R176). -/
def execRaiseWindowFault (s : State) : StepOutcome :=
  guardLegal s (.next (s.setRegs (raiseWindowFault s.regs)))

end Sys2Proof.Machine
end

