-- ==== Sys2Proof/Machine/RegisterInterface.lean ====
section
/-! DEFINITION. The four operations of the Register Interface executed on their own (40_register_interface.md R90 to R94):
one access each, no register written; what a read returns goes to the caller, here to `ret` (log 8). -/

namespace Sys2Proof.Machine

/-- RD_STATUS (R90). -/
def execRdStatus (s : State) : StepOutcome :=
  guardLegal s (.next ((readStatus s).setRet (.status (statusValue s))))

/-- RD_DATA (R91); stuck at an odd address on a bus that does not carry it (20_memory.md R56). -/
def execRdData (s : State) : StepOutcome :=
  guardLegal s
    (if dataReadStuck s then .fault .dataReadStuck else .next ((readData s).setRet (.data (dataValue s))))

/-- WR_TRIGGER (R92). -/
def execWrTrigger (s : State) : StepOutcome := guardLegal s (.next (writeTrigger s))

/-- WR_CONFIG (R93). -/
def execWrConfig (off : Long) (b : Byte) (s : State) : StepOutcome :=
  guardLegal s (.next (writeConfig off.toNat b s))

end Sys2Proof.Machine
end

