-- ==== Sys2Proof/Machine/StateOps.lean ====
section
/-! DEFINITION. The ten state operations (41_acquisition_fsm.md R104 to R113). -/

namespace Sys2Proof.Machine

/-- A poll of READY: one status read, its byte latched, the test made on the byte just read (R104, R107). -/
def readyPoll (st : Stage) (next : StateCode) (s : State) : State :=
  if isReady s.cfg (statusValue s) then
    (readStatus s).setRegs (pollPassed next { s.regs with status := statusValue s })
  else (readStatus s).setRegs (pollFailed s.cfg st { s.regs with status := statusValue s })

/-- WAIT_READY_PRE (R104). -/
def execWaitReadyPre (s : State) : StepOutcome :=
  engineOp stWaitReadyPre s (.next (readyPoll .waitingForDevice stDrain s))

/-- A poll of NOT_EMPTY: one status read; on a failed check one data read after it, whose value is dropped (R105, 10_state.md R27). -/
def drainPoll (s : State) : State :=
  if isNotEmpty s.cfg (statusValue s) then
    (readData (readStatus s)).setRegs (pollFailed s.cfg .discardingData { s.regs with status := statusValue s })
  else (readStatus s).setRegs (pollPassed stTrigger { s.regs with status := statusValue s })

/-- DRAIN (R105); the discarding data read may be stuck (20_memory.md R56). -/
def execDrain (s : State) : StepOutcome :=
  engineOp stDrain s
    (if dataReadStuck s && isNotEmpty s.cfg (statusValue s) then .fault .dataReadStuck else .next (drainPoll s))

/-- TRIGGER (R106). -/
def execTrigger (s : State) : StepOutcome :=
  engineOp stTrigger s (.next ((writeTrigger s).setRegs { s.regs with retry := 0, state := stWaitReadyPost }))

/-- WAIT_READY_POST (R107). -/
def execWaitReadyPost (s : State) : StepOutcome :=
  engineOp stWaitReadyPost s (.next (readyPoll .waitingForData stRead s))

/-- The registers READ writes from the data word w (R108). -/
def deliver (c : Cfg) (w : Half) (r : Regs) : Regs :=
  let raw := extract c.extractMode w
  let scaled : Long := BitVec.ofNat 64 (scale c.p raw.toNat)
  let volt : Long := BitVec.ofNat 64 (divide scaled.toNat)
  let value : Long := match c.outMode with
    | .formatted => volt
    | .raw => raw.zeroExtend 64
  endOperation .success r.stage value (successReport c raw volt) stSuccess
    { r with sample := w, raw := raw, scaled := scaled, volt := volt }

/-- READ (R108); the data read may be stuck (20_memory.md R56). -/
def execRead (s : State) : StepOutcome :=
  engineOp stRead s
    (if dataReadStuck s then .fault .dataReadStuck
    else .next ((readData s).setRegs (deliver s.cfg (dataValue s) s.regs)))

/-- IDLE: the engine step changes nothing (R113). -/
def execIdle (s : State) : StepOutcome := engineOp stIdle s (.next s)

/-- SUCCESS: the engine step changes nothing (R109). -/
def execSuccess (s : State) : StepOutcome := engineOp stSuccess s (.next s)

/-- TIMEOUT: the engine step changes nothing (R110). -/
def execTimeout (s : State) : StepOutcome := engineOp stTimeout s (.next s)

/-- FAULT: the engine step changes nothing (R111). -/
def execFault (s : State) : StepOutcome := engineOp stFault s (.next s)

/-- INIT_STATE: one configuration write per step in index order, then SUCCESS (R112). A CFGIDX above N_CFG, which no run
reaches, has no entry (log 16). -/
def execInitState (s : State) : StepOutcome :=
  engineOp stInit s
    (if s.regs.cfgIdx.toNat = s.cfg.nCfg then
      .next (s.setRegs { s.regs with outcome := .success, state := stSuccess })
    else
      match s.cfg.cfgTable[s.regs.cfgIdx.toNat]? with
      | some e => .next ((writeConfig e.offset e.byte s).setRegs { s.regs with cfgIdx := s.regs.cfgIdx + 1 })
      | none => .fault .configIndexOutOfRange)

end Sys2Proof.Machine
end

