-- ==== Sys2Proof/Machine/Dispatch.lean ====
section
/-! DEFINITION. The dispatch: one arm per operation, one direct call of its meaning. -/

namespace Sys2Proof.Machine

def exec (i : Instr) (s : State) : Host.Outcome State Fault Refusal :=
  match i with
  -- host commands, 41_acquisition_fsm.md R100 to R103
  | .nop => Sys2Proof.Machine.execNop s
  | .start => Sys2Proof.Machine.execStart s
  | .init => Sys2Proof.Machine.execInit s
  | .ack => Sys2Proof.Machine.execAck s
  -- state operations, R104 to R113
  | .idle => Sys2Proof.Machine.execIdle s
  | .waitReadyPre => Sys2Proof.Machine.execWaitReadyPre s
  | .drain => Sys2Proof.Machine.execDrain s
  | .trigger => Sys2Proof.Machine.execTrigger s
  | .waitReadyPost => Sys2Proof.Machine.execWaitReadyPost s
  | .read => Sys2Proof.Machine.execRead s
  | .success => Sys2Proof.Machine.execSuccess s
  | .timeout => Sys2Proof.Machine.execTimeout s
  | .fault => Sys2Proof.Machine.execFault s
  | .initState => Sys2Proof.Machine.execInitState s
  -- events, R114 and 70_reset_and_hazards.md R200
  | .suspendExpire => Sys2Proof.Machine.execSuspendExpire s
  | .reset => Sys2Proof.Machine.execReset s
  -- Register Interface, 40_register_interface.md R90 to R93
  | .rdStatus => Sys2Proof.Machine.execRdStatus s
  | .rdData => Sys2Proof.Machine.execRdData s
  | .wrTrigger => Sys2Proof.Machine.execWrTrigger s
  | .wrConfig off b => Sys2Proof.Machine.execWrConfig off b s
  -- datapath functions, 42_scaler.md and 43_formatter.md
  | .isReadyClear b => Sys2Proof.Machine.execIsReadyClear b s
  | .isReadySet b => Sys2Proof.Machine.execIsReadySet b s
  | .isNotEmptyClear b => Sys2Proof.Machine.execIsNotEmptyClear b s
  | .isNotEmptySet b => Sys2Proof.Machine.execIsNotEmptySet b s
  | .extractLow12 w => Sys2Proof.Machine.execExtractLow12 w s
  | .extractShift4 w => Sys2Proof.Machine.execExtractShift4 w s
  | .extractMask4 w => Sys2Proof.Machine.execExtractMask4 w s
  | .scale r => Sys2Proof.Machine.execScale r s
  | .divide sc => Sys2Proof.Machine.execDivide sc s
  | .convert r => Sys2Proof.Machine.execConvert r s
  | .rawOut r => Sys2Proof.Machine.execRawOut r s
  | .format v => Sys2Proof.Machine.execFormat v s
  | .decimal v => Sys2Proof.Machine.execDecimal v s
  | .diagLine st => Sys2Proof.Machine.execDiagLine st s
  | .lenientZeroValue => Sys2Proof.Machine.execLenientZeroValue s
  | .lenientEmpty => Sys2Proof.Machine.execLenientEmpty s
  | .trunc full => Sys2Proof.Machine.execTrunc full s
  -- raises, 60_exceptions.md R175 and R176
  | .raiseTimeout st => Sys2Proof.Machine.execRaiseTimeout st s
  | .raiseWindowFault => Sys2Proof.Machine.execRaiseWindowFault s

end Sys2Proof.Machine
end

