-- ==== Sys2Proof/Machine/Fetch.lean ====
section
/-! DEFINITION. Which operation the coming step executes (00_scope.md R6; 60_exceptions.md R179; 30_encoding.md R73), what
the input ports are at the step after it (log 3), and how a word is placed where the next step reads its code. -/

namespace Sys2Proof.Machine

/-- The operation selected at a state: reset before everything (R179 a), then the expiry of the suspend, then a requested
host command, then the engine, which has no step while WAITING = 1 (10_state.md R33) and otherwise the one STATE selects.
`ok none` is a step at which nothing is enabled. TICK goes before a command, which has no effect while WAITING = 1 (log 4). -/
def fetch (s : State) : Except DecodeError (Option Instr) :=
  if s.ports.rst then (decode ⟨.rst, 1, []⟩).map some
  else if s.regs.waiting && s.ports.tick then (decode ⟨.tick, 1, []⟩).map some
  else
    match s.ports.cmd with
    | some c => (decode ⟨.cmd, c.zeroExtend 4, []⟩).map some
    | none => if s.regs.waiting then .ok none else (decode ⟨.state, s.regs.state, []⟩).map some

/-- The ports when the environment does nothing new: the levels stay, no reset, no command, and an awaited TICK is
delivered (log 3; 30_encoding.md R85 "every TICK is delivered at once"). -/
def Ports.quiet (p : Ports) : Ports := { p with rst := false, cmd := none, tick := true }

/-- The input ports move on to the next step (log 3). -/
def advance (s : State) : State :=
  match s.future with
  | [] => s.setPorts s.ports.quiet []
  | p :: rest => s.setPorts p rest

/-- What a step adds to its operation: the input ports move on in the next state. -/
def settle : StepOutcome → StepOutcome
  | .next s => .next (advance s)
  | .fault f => .fault f
  | .refused r => .refused r

/-- The state operation that issues a bus operation in a run: WAIT_READY_PRE, READ, TRIGGER and INIT (R90 to R93, "Called by"). -/
def busCaller (code : BitVec 4) : StateCode :=
  if code = 0x5 then stRead else if code = 0xA then stTrigger else if code = 0xB then stInit else stWaitReadyPre

/-- The state at which the coming step is the engine's, with the given code in STATE. -/
def atEngineStep (s : State) (code : StateCode) : State :=
  (s.setRegs { s.regs with state := code, waiting := false }).setPorts { s.ports with rst := false, cmd := none } s.future

/-- A word placed where the coming step reads its code: STATE for a state operation; for a bus operation, which is never
a step of its own (R6), the state operation that issues it (log 11); CMD for a command. Other places are left as they are. -/
def placeWord (s : State) (w : OpWord) : State :=
  match w.sel with
  | .state => atEngineStep s w.code
  | .bus => atEngineStep s (busCaller w.code)
  | .cmd => s.setPorts { s.ports with rst := false, cmd := some (w.code.setWidth 2), tick := false } s.future
  | _ => s

end Sys2Proof.Machine
end

