-- ==== Sys2Proof/Machine/Step.lean ====
section
/-! DEFINITION. One step of the machine (00_scope.md R6): the selected operation, then the input ports move on. -/

namespace Sys2Proof.Machine

/-- One step. A reserved code in STATE has no operation: stuck (93_implementation_defined.md U2). -/
def step (s : State) : Host.Outcome State Fault Refusal :=
  match fetch s with
  | .ok (some i) => settle (exec i s)
  | .ok none => settle (guardLegal s (.next s))
  | .error _ => guardLegal s (.fault .reservedState)

/-- The state with the instruction of a table word placed where the coming step reads its code (log 11). -/
def State.withFetchWord (s : State) (nbits w : Nat) : State :=
  match decodeTableWord nbits w with
  | some _ => placeWord s (tableWord w)
  | none => s

end Sys2Proof.Machine
end

