-- ==== Sys2Proof/Safety.lean ====
section
/-! DEFINITION. What claims about ACQ are stated in: the kinds of state (00_scope.md R18), the invariants of the block, the
transition table (41_acquisition_fsm.md R115), the accesses of a run (20_memory.md R53, R66), what the environment may do,
and the reading of a digit string (43_formatter.md R153). -/

namespace Sys2Proof.Machine

/-! ### Kinds of state -/

/-- The states that poll: WAIT_READY_PRE, DRAIN, WAIT_READY_POST. -/
abbrev Polling (st : StateCode) : Prop := st = stWaitReadyPre ∨ st = stDrain ∨ st = stWaitReadyPost

/-- The working states of an acquisition. -/
abbrev Acquiring (st : StateCode) : Prop := Polling st ∨ st = stTrigger ∨ st = stRead

/-- The working states (00_scope.md R18). -/
abbrev Working (st : StateCode) : Prop := Acquiring st ∨ st = stInit

/-- The terminal states (R18). -/
abbrev Terminal (st : StateCode) : Prop := st = stSuccess ∨ st = stTimeout ∨ st = stFault

/-! ### Invariants -/

/-- The latched window holds every register of the list, lies in the address space, and is a claimed window (20_memory.md R51). -/
abbrev LatchedWindow (s : State) (offs : List (Nat × Nat)) : Prop :=
  s.regs.lBase ≠ 0 ∧ s.regs.lLen ≠ 0 ∧ s.regs.lBase + s.regs.lLen ≤ 2 ^ s.cfg.aw ∧ Contained s.regs.lLen offs

/-- Sequencing: STATE holds a named code (10_state.md R23), WAITING is 1 only while polling (R33), RETRY is below BOUND
while polling and never above it (R25), CFGIDX is never above N_CFG (42_scaler.md R138). -/
structure SequencingInv (s : State) : Prop where
  stateCode : s.regs.state.toNat ≤ 9
  waiting : s.regs.waiting = true → Polling s.regs.state
  retryPolling : Polling s.regs.state → s.regs.retry.toNat < s.cfg.bound
  retry : s.regs.retry.toNat ≤ s.cfg.bound
  cfgIdx : s.regs.cfgIdx.toNat ≤ s.cfg.nCfg

/-- Window: the latched base and length have their widths, and in a working state they are a window WindowOK has accepted. -/
structure WindowInv (s : State) : Prop where
  baseWidth : s.regs.lBase < 2 ^ s.cfg.aw
  lenWidth : s.regs.lLen < 2 ^ (s.cfg.aw + 1)
  acquiring : Acquiring s.regs.state → LatchedWindow s (acquireOffs s.cfg)
  attaching : s.regs.state = stInit → LatchedWindow s (initOffs s.cfg)

/-- Results: OUTCOME goes with STATE, STAGE is set exactly on a timeout (10_state.md R35), OUT_BUF has 32 bytes and is
zero from OUT_LEN on (R35). -/
structure ResultInv (s : State) : Prop where
  working : Working s.regs.state → s.regs.outcome = .none
  success : s.regs.state = stSuccess → s.regs.outcome = .success
  timeout : s.regs.state = stTimeout → s.regs.outcome = .timeout
  fault : s.regs.state = stFault → s.regs.outcome = .fault
  stage : s.regs.stage ≠ none ↔ s.regs.outcome = .timeout
  bufLength : s.regs.outBuf.length = outBufBytes
  lenBound : s.regs.outLen.toNat ≤ outBufBytes
  bufZero : ∀ i, s.regs.outLen.toNat ≤ i → i < outBufBytes → s.regs.outBuf[i]? = some 0

/-- Scaler: RAW is the sample extracted, SCALED its exact product, VOLT its truncated quotient (10_state.md R24), and SCALED
fits ACC_W bits (R28). -/
structure ScalerInv (s : State) : Prop where
  raw : s.regs.raw = extract s.cfg.extractMode s.regs.sample
  scaled : s.regs.scaled.toNat = s.regs.raw.toNat * 10 * 10 ^ s.cfg.p
  volt : s.regs.volt.toNat = s.regs.scaled.toNat / 32752
  fits : s.regs.scaled.toNat < 2 ^ s.cfg.accW

/-- The invariant of the block. -/
structure Inv (s : State) : Prop where
  sequencing : SequencingInv s
  window : WindowInv s
  result : ResultInv s
  scaler : ScalerInv s

/-! ### Transitions -/

/-- What makes STATE change, reset apart (R115, column "event"). -/
inductive Event where
  | start
  | init
  | ack
  | engine
  deriving DecidableEq, Repr

/-- The rows of the transition table of R115, reset apart, one constructor a row: the state before, the row's condition, and the
registers after with what the row says of STAGE and WAITING. A row that names three states before is three constructors. -/
inductive Transition (s : State) (r : Regs) : Event → Prop where
  | startAccepted : s.regs.state = stIdle →
      WindowOK s.cfg.aw (sampledBase s) (sampledLen s) s.ports.winValid (acquireOffs s.cfg) →
      r.state = stWaitReadyPre → Transition s r .start
  | startFaulted : s.regs.state = stIdle →
      ¬ WindowOK s.cfg.aw (sampledBase s) (sampledLen s) s.ports.winValid (acquireOffs s.cfg) →
      r.state = stFault → Transition s r .start
  | initAccepted : s.regs.state = stIdle →
      WindowOK s.cfg.aw (sampledBase s) (sampledLen s) s.ports.winValid (initOffs s.cfg) →
      r.state = stInit → Transition s r .init
  | initFaulted : s.regs.state = stIdle →
      ¬ WindowOK s.cfg.aw (sampledBase s) (sampledLen s) s.ports.winValid (initOffs s.cfg) →
      r.state = stFault → Transition s r .init
  | preReady : s.regs.state = stWaitReadyPre → isReady s.cfg (statusValue s) = true →
      r.state = stDrain → Transition s r .engine
  | preAgain : s.regs.state = stWaitReadyPre → isReady s.cfg (statusValue s) = false →
      s.regs.retry.toNat + 1 < s.cfg.bound → r.state = stWaitReadyPre → r.waiting = true → Transition s r .engine
  | preTimeout : s.regs.state = stWaitReadyPre → isReady s.cfg (statusValue s) = false →
      s.regs.retry.toNat + 1 = s.cfg.bound → r.state = stTimeout → r.stage = some .waitingForDevice →
      Transition s r .engine
  | drained : s.regs.state = stDrain → isNotEmpty s.cfg (statusValue s) = false →
      r.state = stTrigger → Transition s r .engine
  | drainAgain : s.regs.state = stDrain → isNotEmpty s.cfg (statusValue s) = true →
      s.regs.retry.toNat + 1 < s.cfg.bound → r.state = stDrain → r.waiting = true → Transition s r .engine
  | drainTimeout : s.regs.state = stDrain → isNotEmpty s.cfg (statusValue s) = true →
      s.regs.retry.toNat + 1 = s.cfg.bound → r.state = stTimeout → r.stage = some .discardingData →
      Transition s r .engine
  | triggered : s.regs.state = stTrigger → r.state = stWaitReadyPost → Transition s r .engine
  | postReady : s.regs.state = stWaitReadyPost → isReady s.cfg (statusValue s) = true →
      r.state = stRead → Transition s r .engine
  | postAgain : s.regs.state = stWaitReadyPost → isReady s.cfg (statusValue s) = false →
      s.regs.retry.toNat + 1 < s.cfg.bound → r.state = stWaitReadyPost → r.waiting = true → Transition s r .engine
  | postTimeout : s.regs.state = stWaitReadyPost → isReady s.cfg (statusValue s) = false →
      s.regs.retry.toNat + 1 = s.cfg.bound → r.state = stTimeout → r.stage = some .waitingForData →
      Transition s r .engine
  | delivered : s.regs.state = stRead → r.state = stSuccess → Transition s r .engine
  | attachAgain : s.regs.state = stInit → s.regs.cfgIdx.toNat < s.cfg.nCfg → r.state = stInit → Transition s r .engine
  | attached : s.regs.state = stInit → s.regs.cfgIdx.toNat = s.cfg.nCfg → r.state = stSuccess → Transition s r .engine
  | successAcked : s.regs.state = stSuccess → r.state = stIdle → Transition s r .ack
  | timeoutAcked : s.regs.state = stTimeout → r.state = stIdle → Transition s r .ack
  | faultAcked : s.regs.state = stFault → r.state = stIdle → Transition s r .ack

/-- The event is the one the coming step executes. -/
abbrev EventAt (s : State) : Event → Prop
  | .start => s.ports.rst = false ∧ s.ports.cmd = some 1
  | .init => s.ports.rst = false ∧ s.ports.cmd = some 2
  | .ack => s.ports.rst = false ∧ s.ports.cmd = some 3
  | .engine => s.ports.rst = false ∧ s.ports.cmd = none ∧ s.regs.waiting = false

/-! ### Accesses of a run -/

/-- The access lies in the latched window (20_memory.md R53). -/
abbrev InWindow (s : State) (a : Access) : Prop :=
  s.regs.lBase ≤ a.addr ∧ a.addr + a.op.size ≤ s.regs.lBase + s.regs.lLen

/-- How many accesses of one operation a trace holds. -/
def countOp (op : BusOp) (tr : List Access) : Nat := tr.countP fun a => a.op = op

/-- The start of an acquisition: what an accepted START with WindowOK leaves in the sequencing registers (R100). -/
abbrev AtAcquisitionStart (s : State) : Prop :=
  s.regs.state = stWaitReadyPre ∧ s.regs.retry = 0 ∧ s.regs.waiting = false ∧ s.regs.outcome = .none ∧ s.regs.stage = none

/-! ### What the environment may do -/

/-- From here on the environment does nothing but deliver every awaited TICK (30_encoding.md R85, `run`). -/
abbrev QuietEnvironment (s : State) : Prop :=
  s.ports.rst = false ∧ s.ports.cmd = none ∧ s.ports.tick = true ∧ s.future = []

/-- From here on the host neither resets the block nor acknowledges; it may do anything else, at any step. -/
abbrev NoResetNoAck (s : State) : Prop :=
  ∀ p ∈ s.ports :: s.future, p.rst = false ∧ p.cmd ≠ some 3

/-! ### Digit strings -/

/-- The bytes are ASCII digits (43_formatter.md R161). -/
abbrev AllDigits (bs : List Byte) : Prop := ∀ b ∈ bs, 0x30 ≤ b.toNat ∧ b.toNat ≤ 0x39

/-- The number a digit string reads as (R152, R153). -/
def digitsValue (bs : List Byte) : Nat := bs.foldl (fun n b => 10 * n + (b.toNat - 0x30)) 0

/-- A digit string without a leading zero, but for the single digit 0 (R151, R152). -/
abbrev NoLeadingZero (bs : List Byte) : Prop := bs ≠ [] ∧ (bs.head? = some 0x30 → bs = [0x30])

end Sys2Proof.Machine
end

