-- ==== Sys2Proof/Certificates/Slice0/Obligations.lean ====
section
/-! DEFINITION. The statements for the provers. Each docstring names the rules of spec/ it formalises.
`CfgLegal s.cfg` stands in every statement about a next state: under an illegal CFG nothing runs (00_scope.md R9). -/

open Sys2Proof Sys2Proof.Machine

/-! ## Decoding -/

/-- A word written out from each encoding table of 30_encoding.md R71 to R79 decodes to the operation it stands for. -/
def Obligations.TableWordsDecode : Prop :=
  decode ⟨.cmd, 0b01, []⟩ = .ok .start ∧ decode ⟨.cmd, 0b11, []⟩ = .ok .ack ∧
  decode ⟨.state, 0b0010, []⟩ = .ok .drain ∧ decode ⟨.state, 0b1001, []⟩ = .ok .initState ∧
  decode ⟨.bus, 0b0101, []⟩ = .ok .rdData ∧ decode ⟨.bus, 0b1010, []⟩ = .ok .wrTrigger ∧
  decode ⟨.rst, 0b1, []⟩ = .ok .reset ∧ decode ⟨.readyPol, 0b1, [0x80]⟩ = .ok (.isReadySet 0x80) ∧
  decode ⟨.extractMode, 0b10, [0xF7, 0xFF]⟩ = .ok (.extractMask4 0xFFF7) ∧
  decode ⟨.res, 0b1110, []⟩ = .ok (.raiseTimeout .waitingForData)

/-- Decoding the encoding of a well-formed operation gives it back, with every operand at every value. -/
def Obligations.DecodeOfEncode : Prop := ∀ i : Instr, WellFormed i → decode (encode i) = .ok i

/-- Whatever decodes is well formed, and encoding it gives the word back; only DIAGLINE leaves a bit of its code free (OUT_MODE,
30_encoding.md R79). -/
def Obligations.EncodeOfDecode : Prop :=
  ∀ (w : OpWord) (i : Instr), decode w = .ok i →
    WellFormed i ∧ (¬ (w.sel = .diag ∧ w.code = 3) → encode i = w)

/-- The reserved and unused codes of 30_encoding.md R81 (a), (b), (c) are rejected by name, whatever the operand bytes. -/
def Obligations.ReservedCodesRejected : Prop :=
  (∀ (c : BitVec 4) (ops : List Byte), 0xA ≤ c.toNat → decode ⟨.state, c, ops⟩ = .error .reservedState) ∧
  (∀ ops : List Byte, decode ⟨.extractMode, 0b11, ops⟩ = .error .reservedExtractMode) ∧
  (∀ (c : BitVec 4) (ops : List Byte), c ∉ [0b0000#4, 0b0101#4, 0b1010#4, 0b1011#4] →
    decode ⟨.bus, c, ops⟩ = .error .unusedDescriptor)

/-! ## The step -/

/-- A step runs the selected operation: RST before everything (60_exceptions.md R179 a), the expiry of an awaited suspend, a
requested host command, else the state operation STATE selects (00_scope.md R6; 30_encoding.md R73). What it adds, in the
next state, is that the input ports move on (log 3); TICK before a simultaneous command is the model's choice (log 4). -/
def Obligations.StepRunsSelectedOperation : Prop :=
  ∀ s : State,
    (s.ports.rst = true → step s = settle (exec .reset s)) ∧
    (s.ports.rst = false → s.regs.waiting = true → s.ports.tick = true → step s = settle (exec .suspendExpire s)) ∧
    (s.ports.rst = false → (s.regs.waiting = false ∨ s.ports.tick = false) → ∀ c i, s.ports.cmd = some c →
      decode ⟨.cmd, c.zeroExtend 4, []⟩ = .ok i → step s = settle (exec i s)) ∧
    (s.ports.rst = false → s.ports.cmd = none → s.regs.waiting = false → ∀ i,
      decode ⟨.state, s.regs.state, []⟩ = .ok i → step s = settle (exec i s)) ∧
    (∀ f, settle (.fault f) = .fault f) ∧ (∀ r, settle (.refused r) = .refused r) ∧
    (∀ t p rest, t.future = p :: rest → settle (.next t) = .next { t with ports := p, future := rest }) ∧
    (∀ t, t.future = [] →
      settle (.next t) = .next { t with ports := { t.ports with rst := false, cmd := none, tick := true } })

/-- The steps that execute no operation. While WAITING = 1 and neither RST, nor TICK, nor a command is present, the engine has no step:
no register and no access (10_state.md R33). With a reserved code in STATE the engine step is stuck (93_implementation_defined.md U2;
30_encoding.md R81 a). -/
def Obligations.StepsWithoutAnOperation : Prop :=
  ∀ s : State, CfgLegal s.cfg → s.ports.rst = false → s.ports.cmd = none →
    (s.regs.waiting = true → s.ports.tick = false →
      ∃ t, step s = .next t ∧ t.regs = s.regs ∧ t.trace = s.trace ∧ t.dev = s.dev ∧ t.cfg = s.cfg ∧ t.ret = s.ret) ∧
    (s.regs.waiting = false → 0xA ≤ s.regs.state.toNat → step s = .fault .reservedState)

/-- No rule applies to an illegal CFG: every operation and every step refuses it (00_scope.md R9; 93_implementation_defined.md U1). -/
def Obligations.IllegalConfigRefused : Prop :=
  ∀ s : State, ¬ CfgLegal s.cfg → (∀ i, exec i s = .refused .illegalConfig) ∧ step s = .refused .illegalConfig

/-! ## Reset -/

/-- After reset every register holds the value of 10_state.md R46, the trace is empty, BUSY and DONE are 0. -/
def Obligations.ResetValues : Prop :=
  State.reset.regs =
    { state := 0x0, waiting := false, retry := 0, status := 0, sample := 0, raw := 0, scaled := 0, volt := 0, cfgIdx := 0,
      lBase := 0, lLen := 0, lCap := 0, outcome := .none, stage := none, value := 0, outLen := 0,
      outBuf := List.replicate 32 0 } ∧
  State.reset.trace = [] ∧ busy State.reset.regs = false ∧ done State.reset.regs = false

/-- The reset step (70_reset_and_hazards.md R200): from any state every register takes its reset value, with no access and nothing else
changed; after it BUSY and DONE are 0. A step with RST asserted is the reset step, whatever else is asserted. -/
def Obligations.ResetCompletes : Prop :=
  ∀ s : State, CfgLegal s.cfg →
    (∃ t, exec .reset s = .next t ∧ busy t.regs = false ∧ done t.regs = false ∧ t = { s with regs :=
      { state := stIdle, waiting := false, retry := 0, status := 0, sample := 0, raw := 0, scaled := 0, volt := 0, cfgIdx := 0,
        lBase := 0, lLen := 0, lCap := 0, outcome := .none, stage := none, value := 0, outLen := 0,
        outBuf := List.replicate 32 0 } }) ∧
    (s.ports.rst = true → step s = settle (exec .reset s))

/-! ## Host commands (41_acquisition_fsm.md R100 to R103) -/

/-- START in IDLE (R100), with the window ports in their widths (10_state.md R38): every working and result register cleared, the window
and the capacity latched, no access; then WAIT_READY_PRE where WindowOK holds (20_memory.md R51), and otherwise FAULT with
OUTCOME = FAULT (60_exceptions.md R176). BUSY becomes 1. -/
def Obligations.StartCompletes : Prop :=
  ∀ s : State, CfgLegal s.cfg → s.regs.state = stIdle →
    s.ports.winBase < 2 ^ s.cfg.aw → s.ports.winLen < 2 ^ (s.cfg.aw + 1) →
    let ok := s.ports.winValid = true ∧ s.ports.winBase ≠ 0 ∧ s.ports.winLen ≠ 0 ∧
      s.ports.winBase + s.ports.winLen ≤ 2 ^ s.cfg.aw ∧
      s.cfg.offStatus + 1 ≤ s.ports.winLen ∧ s.cfg.offData + 2 ≤ s.ports.winLen ∧ s.cfg.offTrigger + 1 ≤ s.ports.winLen
    (ok → exec .start s = .next { s with regs :=
      { state := stWaitReadyPre, waiting := false, retry := 0, status := 0, sample := 0, raw := 0, scaled := 0, volt := 0,
        cfgIdx := 0, lBase := s.ports.winBase, lLen := s.ports.winLen, lCap := s.ports.cap, outcome := .none, stage := none,
        value := 0, outLen := 0, outBuf := List.replicate 32 0 } }) ∧
    (¬ ok → exec .start s = .next { s with regs :=
      { state := stFault, waiting := false, retry := 0, status := 0, sample := 0, raw := 0, scaled := 0, volt := 0,
        cfgIdx := 0, lBase := s.ports.winBase, lLen := s.ports.winLen, lCap := s.ports.cap, outcome := .fault, stage := none,
        value := 0, outLen := 0, outBuf := List.replicate 32 0 } })

/-- INIT in IDLE (R101): the same clearing and latching, L_CAP = 0; then INIT where every CFG_TABLE register fits the window, and
otherwise FAULT. -/
def Obligations.InitCompletes : Prop :=
  ∀ s : State, CfgLegal s.cfg → s.regs.state = stIdle →
    s.ports.winBase < 2 ^ s.cfg.aw → s.ports.winLen < 2 ^ (s.cfg.aw + 1) →
    let ok := s.ports.winValid = true ∧ s.ports.winBase ≠ 0 ∧ s.ports.winLen ≠ 0 ∧
      s.ports.winBase + s.ports.winLen ≤ 2 ^ s.cfg.aw ∧ ∀ e ∈ s.cfg.cfgTable, e.offset + 1 ≤ s.ports.winLen
    (ok → exec .init s = .next { s with regs :=
      { state := stInit, waiting := false, retry := 0, status := 0, sample := 0, raw := 0, scaled := 0, volt := 0,
        cfgIdx := 0, lBase := s.ports.winBase, lLen := s.ports.winLen, lCap := 0, outcome := .none, stage := none,
        value := 0, outLen := 0, outBuf := List.replicate 32 0 } }) ∧
    (¬ ok → exec .init s = .next { s with regs :=
      { state := stFault, waiting := false, retry := 0, status := 0, sample := 0, raw := 0, scaled := 0, volt := 0,
        cfgIdx := 0, lBase := s.ports.winBase, lLen := s.ports.winLen, lCap := 0, outcome := .fault, stage := none,
        value := 0, outLen := 0, outBuf := List.replicate 32 0 } })

/-- ACK in a terminal state (R102): STATE <- IDLE, no other register, no access; BUSY and DONE become 0. -/
def Obligations.AckCompletes : Prop :=
  ∀ s : State, CfgLegal s.cfg → Terminal s.regs.state →
    ∃ t, exec .ack s = .next t ∧ t = { s with regs := { s.regs with state := stIdle } } ∧
      busy t.regs = false ∧ done t.regs = false

/-- R103: NOP in every state, START and INIT outside IDLE, ACK outside the terminal states change nothing. -/
def Obligations.UnacceptedCommandsChangeNothing : Prop :=
  ∀ s : State, CfgLegal s.cfg →
    exec .nop s = .next s ∧
    (s.regs.state ≠ stIdle → exec .start s = .next s ∧ exec .init s = .next s) ∧
    (¬ Terminal s.regs.state → exec .ack s = .next s)

/-! ## State operations (41_acquisition_fsm.md R104 to R113) -/

/-- IDLE, SUCCESS, TIMEOUT and FAULT: the engine step changes nothing (R113, R109, R110, R111). -/
def Obligations.RestingStatesStand : Prop :=
  ∀ s : State, CfgLegal s.cfg →
    exec .idle s = .next s ∧ exec .success s = .next s ∧ exec .timeout s = .next s ∧ exec .fault s = .next s

/-- A state operation that STATE does not select, or that finds WAITING = 1, is not enabled: nothing changes (section 2; 10_state.md R33). -/
def Obligations.DisabledStateOperationsChangeNothing : Prop :=
  ∀ s : State, CfgLegal s.cfg → ∀ p ∈ [(stWaitReadyPre, Instr.waitReadyPre), (stDrain, .drain), (stTrigger, .trigger),
      (stWaitReadyPost, .waitReadyPost), (stRead, .read), (stInit, .initState)],
    (s.regs.state ≠ p.1 ∨ s.regs.waiting = true) → exec p.2 s = .next s

/-- WAIT_READY_PRE (R104): one status read; ready: DRAIN; not ready: one more failed check, at BOUND Timeout(waiting-for-device),
else the suspend. -/
def Obligations.WaitReadyPreCompletes : Prop :=
  ∀ s : State, CfgLegal s.cfg → s.regs.state = stWaitReadyPre → s.regs.waiting = false →
    let b := s.dev.statusAnswer
    let report := timeoutReport s.cfg .waitingForDevice
    exec .waitReadyPre s = .next { s with
      dev := s.dev.afterStatus
      trace := s.trace ++ [⟨.rdStatus, s.regs.lBase + s.cfg.offStatus, b.zeroExtend 16⟩]
      regs :=
        if ((b &&& s.cfg.readyMask) ≠ 0) ↔ s.cfg.readyPol = true then
          { s.regs with status := b, retry := 0, state := stDrain }
        else if s.regs.retry.toNat + 1 = s.cfg.bound then
          { s.regs with
            status := b, retry := s.regs.retry + 1, stage := some .waitingForDevice, outcome := .timeout, value := 0,
            outLen := BitVec.ofNat 6 (truncLen report s.regs.lCap), outBuf := truncBuf report s.regs.lCap,
            waiting := false, state := stTimeout }
        else { s.regs with status := b, retry := s.regs.retry + 1, waiting := true } }

/-- WAIT_READY_POST (R107): as WAIT_READY_PRE with the successor READ and the stage waiting-for-data. -/
def Obligations.WaitReadyPostCompletes : Prop :=
  ∀ s : State, CfgLegal s.cfg → s.regs.state = stWaitReadyPost → s.regs.waiting = false →
    let b := s.dev.statusAnswer
    let report := timeoutReport s.cfg .waitingForData
    exec .waitReadyPost s = .next { s with
      dev := s.dev.afterStatus
      trace := s.trace ++ [⟨.rdStatus, s.regs.lBase + s.cfg.offStatus, b.zeroExtend 16⟩]
      regs :=
        if ((b &&& s.cfg.readyMask) ≠ 0) ↔ s.cfg.readyPol = true then
          { s.regs with status := b, retry := 0, state := stRead }
        else if s.regs.retry.toNat + 1 = s.cfg.bound then
          { s.regs with
            status := b, retry := s.regs.retry + 1, stage := some .waitingForData, outcome := .timeout, value := 0,
            outLen := BitVec.ofNat 6 (truncLen report s.regs.lCap), outBuf := truncBuf report s.regs.lCap,
            waiting := false, state := stTimeout }
        else { s.regs with status := b, retry := s.regs.retry + 1, waiting := true } }

/-- DRAIN (R105): one status read. Check passed: TRIGGER, no data read. Check failed: one data read after it, whose value is dropped (SAMPLE
keeps its value), the last failed check included; at BOUND Timeout(discarding-data), else the suspend. The failed check is stated where
its data read completes (20_memory.md R56). -/
def Obligations.DrainCompletes : Prop :=
  ∀ s : State, CfgLegal s.cfg → s.regs.state = stDrain → s.regs.waiting = false →
    let b := s.dev.statusAnswer
    let w := s.dev.afterStatus.dataAnswer
    let report := timeoutReport s.cfg .discardingData
    (¬ (((b &&& s.cfg.neMask) ≠ 0) ↔ s.cfg.nePol = true) →
      exec .drain s = .next { s with
        dev := s.dev.afterStatus
        trace := s.trace ++ [⟨.rdStatus, s.regs.lBase + s.cfg.offStatus, b.zeroExtend 16⟩]
        regs := { s.regs with status := b, retry := 0, state := stTrigger } }) ∧
    ((((b &&& s.cfg.neMask) ≠ 0) ↔ s.cfg.nePol = true) →
      (s.cfg.busAllowsMisaligned = true ∨ (s.regs.lBase + s.cfg.offData) % 2 = 0) →
      exec .drain s = .next { s with
        dev := s.dev.afterStatus.afterData
        trace := s.trace ++ [⟨.rdStatus, s.regs.lBase + s.cfg.offStatus, b.zeroExtend 16⟩,
          ⟨.rdData, s.regs.lBase + s.cfg.offData, w.2 ++ w.1⟩]
        regs :=
          if s.regs.retry.toNat + 1 = s.cfg.bound then
            { s.regs with
              status := b, retry := s.regs.retry + 1, stage := some .discardingData, outcome := .timeout, value := 0,
              outLen := BitVec.ofNat 6 (truncLen report s.regs.lCap), outBuf := truncBuf report s.regs.lCap,
              waiting := false, state := stTimeout }
          else { s.regs with status := b, retry := s.regs.retry + 1, waiting := true } })

/-- TRIGGER (R106): exactly one trigger write of TRIG_VALUE, RETRY <- 0, STATE <- WAIT_READY_POST. -/
def Obligations.TriggerCompletes : Prop :=
  ∀ s : State, CfgLegal s.cfg → s.regs.state = stTrigger → s.regs.waiting = false →
    exec .trigger s = .next { s with
      trace := s.trace ++ [⟨.wrTrigger, s.regs.lBase + s.cfg.offTrigger, s.cfg.trigValue.zeroExtend 16⟩]
      regs := { s.regs with retry := 0, state := stWaitReadyPost } }

/-- READ (R108): exactly one data read; SAMPLE, RAW, SCALED, VOLT, VALUE, the output bytes by OUT_MODE, OUTCOME, STATE. SCALED and
VOLT hold the exact numbers of 42_scaler.md R133, R134. -/
def Obligations.ReadCompletes : Prop :=
  ∀ s : State, CfgLegal s.cfg → s.regs.state = stRead → s.regs.waiting = false →
    (s.cfg.busAllowsMisaligned = true ∨ (s.regs.lBase + s.cfg.offData) % 2 = 0) →
    let w := s.dev.dataAnswer.2 ++ s.dev.dataAnswer.1
    let r := extract s.cfg.extractMode w
    ∃ sc v : BitVec 64, sc.toNat = r.toNat * 10 * 10 ^ s.cfg.p ∧ v.toNat = sc.toNat / 32752 ∧
      let full := if s.cfg.outMode = .formatted then format s.cfg.p v else rawOut r
      exec .read s = .next { s with
        dev := s.dev.afterData
        trace := s.trace ++ [⟨.rdData, s.regs.lBase + s.cfg.offData, w⟩]
        regs := { s.regs with
          sample := w, raw := r, scaled := sc, volt := v,
          value := if s.cfg.outMode = .formatted then v else r.zeroExtend 64,
          outLen := BitVec.ofNat 6 (truncLen full s.regs.lCap), outBuf := truncBuf full s.regs.lCap,
          outcome := .success, state := stSuccess } }

/-- INIT_STATE (R112): one configuration write per step in index order; when CFGIDX = N_CFG, SUCCESS without an access. -/
def Obligations.InitStateCompletes : Prop :=
  ∀ s : State, CfgLegal s.cfg → s.regs.state = stInit → s.regs.waiting = false →
    (s.regs.cfgIdx.toNat = s.cfg.nCfg →
      exec .initState s = .next { s with regs := { s.regs with outcome := .success, state := stSuccess } }) ∧
    (s.regs.cfgIdx.toNat < s.cfg.nCfg → ∃ e, s.cfg.cfgTable[s.regs.cfgIdx.toNat]? = some e ∧
      exec .initState s = .next { s with
        trace := s.trace ++ [⟨.wrConfig, s.regs.lBase + e.offset, e.byte.zeroExtend 16⟩]
        regs := { s.regs with cfgIdx := s.regs.cfgIdx + 1 } })

/-- SUSPEND_EXPIRE (R114): WAITING <- 0; every other register keeps its value; no access. -/
def Obligations.SuspendExpireCompletes : Prop :=
  ∀ s : State, CfgLegal s.cfg → s.regs.waiting = true →
    exec .suspendExpire s = .next { s with regs := { s.regs with waiting := false } }

/-- A data read at an odd address on a bus that does not carry it never completes: RD_DATA, READ and a failed check of DRAIN are
stuck (20_memory.md R56; 60_exceptions.md R173). -/
def Obligations.MisalignedDataReadIsStuck : Prop :=
  ∀ s : State, CfgLegal s.cfg → s.cfg.busAllowsMisaligned = false → (s.regs.lBase + s.cfg.offData) % 2 = 1 →
    exec .rdData s = .fault .dataReadStuck ∧
    (s.regs.state = stRead → s.regs.waiting = false → exec .read s = .fault .dataReadStuck) ∧
    (s.regs.state = stDrain → s.regs.waiting = false →
      (((s.dev.statusAnswer &&& s.cfg.neMask) ≠ 0) ↔ s.cfg.nePol = true) → exec .drain s = .fault .dataReadStuck)

/-! ## Register Interface (40_register_interface.md R90 to R93) and the device (20_memory.md R62) -/

/-- RD_STATUS (R90): one byte read at L_BASE + OFF_STATUS, no register written, the byte returned. The byte is the device's next
answer, any value: the queued one, else a free value (log 6). -/
def Obligations.RdStatusCompletes : Prop :=
  ∀ s : State, CfgLegal s.cfg →
    (∀ b rest, s.dev.status = b :: rest → exec .rdStatus s = .next { s with
      dev := { s.dev with status := rest }
      trace := s.trace ++ [⟨.rdStatus, s.regs.lBase + s.cfg.offStatus, b.zeroExtend 16⟩]
      ret := .status b }) ∧
    (s.dev.status = [] → ∃ b, exec .rdStatus s = .next { s with
      dev := { s.dev with draws := s.dev.draws + 1 }
      trace := s.trace ++ [⟨.rdStatus, s.regs.lBase + s.cfg.offStatus, b.zeroExtend 16⟩]
      ret := .status b })

/-- RD_DATA (R91): one two-byte read at L_BASE + OFF_DATA, the byte at the lower address in bits 7:0 (20_memory.md R54), no register
written, the word returned; where the access completes (R56). -/
def Obligations.RdDataCompletes : Prop :=
  ∀ s : State, CfgLegal s.cfg → (s.cfg.busAllowsMisaligned = true ∨ (s.regs.lBase + s.cfg.offData) % 2 = 0) →
    (∀ lo hi rest, s.dev.data = (lo, hi) :: rest → ∃ w : BitVec 16, w.toNat = lo.toNat + 256 * hi.toNat ∧
      exec .rdData s = .next { s with
        dev := { s.dev with data := rest }
        trace := s.trace ++ [⟨.rdData, s.regs.lBase + s.cfg.offData, w⟩]
        ret := .data w }) ∧
    (s.dev.data = [] → ∃ w, exec .rdData s = .next { s with
      dev := { s.dev with draws := s.dev.draws + 2 }
      trace := s.trace ++ [⟨.rdData, s.regs.lBase + s.cfg.offData, w⟩]
      ret := .data w })

/-- WR_TRIGGER (R92): one byte, TRIG_VALUE, written at L_BASE + OFF_TRIGGER; no register written; the byte is not zero. -/
def Obligations.WrTriggerCompletes : Prop :=
  ∀ s : State, CfgLegal s.cfg →
    exec .wrTrigger s = .next { s with
      trace := s.trace ++ [⟨.wrTrigger, s.regs.lBase + s.cfg.offTrigger, s.cfg.trigValue.zeroExtend 16⟩] } ∧
    s.cfg.trigValue ≠ 0

/-- WR_CONFIG (R93): one byte b written at L_BASE + off; no register written. -/
def Obligations.WrConfigCompletes : Prop :=
  ∀ (s : State) (off : BitVec 64) (b : Byte), CfgLegal s.cfg →
    exec (.wrConfig off b) s = .next { s with
      trace := s.trace ++ [⟨.wrConfig, s.regs.lBase + off.toNat, b.zeroExtend 16⟩] }

/-! ## Predicates and scaler (42_scaler.md) -/

/-- ISREADY (R130, 00_scope.md R17): each variant tests the masked value, returns the truth value and changes nothing; isReady is the
variant READY_POL selects. -/
def Obligations.IsReadyCompletes : Prop :=
  ∀ (s : State) (b : Byte), CfgLegal s.cfg →
    exec (.isReadySet b) s = .next { s with ret := .truth (decide ((b &&& s.cfg.readyMask) ≠ 0)) } ∧
    exec (.isReadyClear b) s = .next { s with ret := .truth (decide ((b &&& s.cfg.readyMask) = 0)) } ∧
    exec (if s.cfg.readyPol = true then .isReadySet b else .isReadyClear b) s =
      .next { s with ret := .truth (isReady s.cfg b) }

/-- ISNOTEMPTY (R137, 00_scope.md R17), likewise for NE_MASK and NE_POL. -/
def Obligations.IsNotEmptyCompletes : Prop :=
  ∀ (s : State) (b : Byte), CfgLegal s.cfg →
    exec (.isNotEmptySet b) s = .next { s with ret := .truth (decide ((b &&& s.cfg.neMask) ≠ 0)) } ∧
    exec (.isNotEmptyClear b) s = .next { s with ret := .truth (decide ((b &&& s.cfg.neMask) = 0)) } ∧
    exec (if s.cfg.nePol = true then .isNotEmptySet b else .isNotEmptyClear b) s =
      .next { s with ret := .truth (isNotEmpty s.cfg b) }

/-- The other six bits of the status byte are ignored (10_state.md R31): two device answers that agree on the two masks give the same
predicates, and a poll the same registers but for the STATUS latch. -/
def Obligations.OtherStatusBitsIgnored : Prop :=
  ∀ (s : State) (b b' : Byte) (rest : List Byte), CfgLegal s.cfg →
    b &&& (s.cfg.readyMask ||| s.cfg.neMask) = b' &&& (s.cfg.readyMask ||| s.cfg.neMask) →
    s.dev.status = b :: rest → dataReadStuck s = false → s.regs.waiting = false →
    ∀ p ∈ [(stWaitReadyPre, Instr.waitReadyPre), (stDrain, .drain), (stWaitReadyPost, .waitReadyPost)],
      s.regs.state = p.1 →
      ∃ t t', exec p.2 s = .next t ∧ exec p.2 { s with dev := { s.dev with status := b' :: rest } } = .next t' ∧
        t'.regs = { t.regs with status := b' } ∧ t'.dev = t.dev

/-- EXTRACT (R132): LOW12 is w mod 4096, SHIFT4 is w / 16, MASK4 is 16 * (w / 16); nothing else changes. -/
def Obligations.ExtractCompletes : Prop :=
  ∀ (s : State) (w : BitVec 16), CfgLegal s.cfg →
    exec (.extractLow12 w) s = .next { s with ret := .number (w.toNat % 4096) } ∧
    exec (.extractShift4 w) s = .next { s with ret := .number (w.toNat / 16) } ∧
    exec (.extractMask4 w) s = .next { s with ret := .number (16 * (w.toNat / 16)) } ∧
    extract 0 w = extractLow12 w ∧ extract 1 w = extractShift4 w ∧ extract 2 w = extractMask4 w

/-- SCALE (R133): the exact product r * 10 * 10^P; it fits ACC_W bits for every sample the extractor can deliver; nothing else changes. -/
def Obligations.ScaleCompletes : Prop :=
  ∀ (s : State) (r : BitVec 16), CfgLegal s.cfg →
    exec (.scale r) s = .next { s with ret := .number (r.toNat * 10 * 10 ^ s.cfg.p) } ∧
    (∀ w, r = extract s.cfg.extractMode w → r.toNat * 10 * 10 ^ s.cfg.p ≤ 2 ^ s.cfg.accW - 1)

/-- DIVIDE (R134): the unique v with 32752 * v <= sc < 32752 * (v + 1); nothing else changes. -/
def Obligations.DivideCompletes : Prop :=
  ∀ (s : State) (sc : BitVec 64), CfgLegal s.cfg →
    ∃ v, exec (.divide sc) s = .next { s with ret := .number v } ∧ 32752 * v ≤ sc.toNat ∧ sc.toNat < 32752 * (v + 1)

/-- CONVERT (R135): one truncating division of the full product; nothing else changes. -/
def Obligations.ConvertCompletes : Prop :=
  ∀ (s : State) (r : BitVec 16), CfgLegal s.cfg →
    exec (.convert r) s = .next { s with ret := .number ((r.toNat * 10 ^ (s.cfg.p + 1)) / 32752) }

/-- CONVERT is monotonically non-decreasing in r, 0 at 0, and exact at multiples of the divisor (R136 a, b, c). -/
def Obligations.ConvertIsMonotone : Prop :=
  ∀ (s : State) (r r' : BitVec 16), CfgLegal s.cfg → r.toNat ≤ r'.toNat →
    ∃ v v', exec (.convert r) s = .next { s with ret := .number v } ∧
      exec (.convert r') s = .next { s with ret := .number v' } ∧ v ≤ v' ∧ (r = 0 → v = 0) ∧
      (∀ k, r.toNat = 32752 * k → v = k * 10 ^ (s.cfg.p + 1))

/-- With P = 4 consecutive samples up to 4095 differ in v by 3 or 4 (R136 e). -/
def Obligations.ConvertStepsAtPrecisionFour : Prop :=
  ∀ r : Nat, r < 4095 → convert 4 (r + 1) = convert 4 r + 3 ∨ convert 4 (r + 1) = convert 4 r + 4

/-! ## Formatter (43_formatter.md) -/

/-- DECIMAL (R152): ASCII digits, no leading zero but for "0", reading as v; at most 20 of them, and at most 15 where v is the volt_fixed of
some data word; nothing else changes. -/
def Obligations.DecimalCompletes : Prop :=
  ∀ (s : State) (v : BitVec 64), CfgLegal s.cfg →
    ∃ bs, exec (.decimal v) s = .next { s with ret := .bytes bs } ∧ AllDigits bs ∧ NoLeadingZero bs ∧
      digitsValue bs = v.toNat ∧ bs.length ≤ 20 ∧
      (∀ w, v.toNat = convert s.cfg.p (extract s.cfg.extractMode w).toNat → bs.length ≤ 15)

/-- FORMAT (R151, R154): with P = 0 the decimal digits; otherwise an integer part that reads as v / 10^P without a leading zero, the full
stop, exactly P digits that read as v mod 10^P; then " V" and a line feed; its length; nothing else changes. -/
def Obligations.FormatCompletes : Prop :=
  ∀ (s : State) (v : BitVec 64), CfgLegal s.cfg →
    ∃ bs, exec (.format v) s = .next { s with ret := .bytes bs } ∧
      (s.cfg.p = 0 → bs = decimal v ++ [0x20, 0x56, 0x0A]) ∧
      (s.cfg.p ≠ 0 → ∃ int frac, bs = int ++ [0x2E] ++ frac ++ [0x20, 0x56, 0x0A] ∧
        AllDigits int ∧ NoLeadingZero int ∧ digitsValue int = v.toNat / 10 ^ s.cfg.p ∧
        AllDigits frac ∧ frac.length = s.cfg.p ∧ digitsValue frac = v.toNat % 10 ^ s.cfg.p) ∧
      bs.length = if s.cfg.p = 0 then (decimal v).length + 3 else max (decimal v).length (s.cfg.p + 1) + 1 + 3

/-- The round trip (R153): without the suffix and the full stop the string reads as v. -/
def Obligations.FormatRoundTrips : Prop :=
  ∀ (p : Nat) (v : BitVec 64),
    ∃ bs, format p v = bs ++ [0x20, 0x56, 0x0A] ∧ digitsValue (bs.filter fun b => b ≠ 0x2E) = v.toNat

/-- RAWOUT (R155): two bytes, r[7:0] then r[15:8]; nothing else changes. -/
def Obligations.RawOutCompletes : Prop :=
  ∀ (s : State) (r : BitVec 16), CfgLegal s.cfg →
    ∃ lo hi : Byte, exec (.rawOut r) s = .next { s with ret := .bytes [lo, hi] } ∧
      lo.toNat = r.toNat % 256 ∧ hi.toNat = r.toNat / 256

/-- DIAGLINE (R156), byte by byte as the rule lists them, and LENIENT (R157); nothing else changes. -/
def Obligations.TimeoutReportsComplete : Prop :=
  ∀ s : State, CfgLegal s.cfg →
    exec (.diagLine .waitingForDevice) s = .next { s with
      ret := .bytes
        [0x74, 0x69, 0x6D, 0x65, 0x6F, 0x75, 0x74, 0x20, 0x77, 0x61, 0x69, 0x74, 0x69, 0x6E, 0x67, 0x2D, 0x66, 0x6F, 0x72, 0x2D,
         0x64, 0x65, 0x76, 0x69, 0x63, 0x65, 0x0A] } ∧
    exec (.diagLine .discardingData) s = .next { s with
      ret := .bytes
        [0x74, 0x69, 0x6D, 0x65, 0x6F, 0x75, 0x74, 0x20, 0x64, 0x69, 0x73, 0x63, 0x61, 0x72, 0x64, 0x69, 0x6E, 0x67, 0x2D, 0x64,
         0x61, 0x74, 0x61, 0x0A] } ∧
    exec (.diagLine .waitingForData) s = .next { s with
      ret := .bytes
        [0x74, 0x69, 0x6D, 0x65, 0x6F, 0x75, 0x74, 0x20, 0x77, 0x61, 0x69, 0x74, 0x69, 0x6E, 0x67, 0x2D, 0x66, 0x6F, 0x72, 0x2D,
         0x64, 0x61, 0x74, 0x61, 0x0A] } ∧
    exec .lenientEmpty s = .next { s with ret := .bytes [] } ∧
    exec .lenientZeroValue s = .next { s with ret := .bytes [0x00, 0x00] } ∧
    (∀ st, timeoutReport s.cfg st =
      if s.cfg.strict = true then diagLine st else if s.cfg.outMode = .formatted then [] else [0x00, 0x00])

/-- TRUNC (R158): OUT_LEN = min(len, L_CAP), the bytes below it delivered, the rest of the 32 zero; no other register, nothing else. -/
def Obligations.TruncCompletes : Prop :=
  ∀ (s : State) (full : List Byte), CfgLegal s.cfg → WellFormed (.trunc full) →
    ∃ (n : BitVec 6) (buf : List Byte),
      exec (.trunc full) s = .next { s with regs := { s.regs with outLen := n, outBuf := buf } } ∧
      n.toNat = min full.length s.regs.lCap.toNat ∧ buf.length = 32 ∧
      (∀ i, i < n.toNat → buf[i]? = full[i]?) ∧ (∀ i, n.toNat ≤ i → i < 32 → buf[i]? = some 0)

/-- The bound on length (R159): under a legal CFG the formatted string of any data word has at most 19 bytes, the raw one 2, a DIAGLINE at
most 27, a lenient report at most 2, so every full string has at most 27. -/
def Obligations.ReportsFitTheBuffer : Prop :=
  ∀ (c : Cfg) (w : BitVec 16) (v : BitVec 64) (st : Stage) (m : OutMode), CfgLegal c →
    v.toNat = convert c.p (extract c.extractMode w).toNat →
    (format c.p v).length ≤ 19 ∧ (rawOut (extract c.extractMode w)).length = 2 ∧ (diagLine st).length ≤ 27 ∧
      (lenient m).length ≤ 2 ∧ (successReport c (extract c.extractMode w) v).length ≤ 27 ∧
      (timeoutReport c st).length ≤ 27

/-! ## Raises (60_exceptions.md R175, R176) -/

/-- raise Timeout(stage) (R175): the five result registers, WAITING and STATE; STATUS, RETRY and all else keep their values; no access. -/
def Obligations.RaiseTimeoutCompletes : Prop :=
  ∀ (s : State) (st : Stage), CfgLegal s.cfg →
    let full := if s.cfg.strict = true then diagLine st else lenient s.cfg.outMode
    exec (.raiseTimeout st) s = .next { s with regs := { s.regs with
      stage := some st, outcome := .timeout, value := 0, outLen := BitVec.ofNat 6 (truncLen full s.regs.lCap),
      outBuf := truncBuf full s.regs.lCap, waiting := false, state := stTimeout } }

/-- raise WindowFault (R176): OUTCOME, STAGE, VALUE, OUT_LEN, OUT_BUF and STATE; all else keeps its value; no access. -/
def Obligations.RaiseWindowFaultCompletes : Prop :=
  ∀ s : State, CfgLegal s.cfg →
    exec .raiseWindowFault s = .next { s with regs := { s.regs with
      outcome := .fault, stage := none, value := 0, outLen := 0, outBuf := List.replicate 32 0, state := stFault } }

/-! ## Whole-machine statements -/

/-- The invariant holds right after reset. -/
def Obligations.InvariantHoldsAtReset : Prop := Inv State.reset

/-- Every step keeps the invariant: STATE codes, WAITING, RETRY and CFGIDX bounds, the latched window, the result registers and the
scaler registers (10_state.md R23, R25, R28, R33, R35; 20_memory.md R51). -/
def Obligations.StepKeepsInvariant : Prop := ∀ s t : State, Inv s → step s = .next t → Inv t

/-- No step changes CFG (00_scope.md R11), and the trace only grows (R16; 20_memory.md R57). -/
def Obligations.StepKeepsConfigAndTrace : Prop :=
  ∀ s t : State, step s = .next t → t.cfg = s.cfg ∧ s.trace <+: t.trace

/-- Every transition of STATE is a row of the table of 41_acquisition_fsm.md R115, with the row's condition and what the row says of
STATE, STAGE and WAITING: a step is a reset to IDLE, or takes a row for the event it executes, or leaves STATE as it is; and an engine
step in a working state always takes a row. -/
def Obligations.StateChangesOnlyByTheTable : Prop :=
  ∀ s t : State, Inv s → step s = .next t →
    (s.ports.rst = true ∧ t.regs.state = stIdle) ∨ (∃ e, EventAt s e ∧ Transition s t.regs e) ∨
      (t.regs.state = s.regs.state ∧ ¬ (EventAt s .engine ∧ Working s.regs.state))

/-- Every access a step makes lies in the latched window and below 2^AW, and is made by a working state with WAITING = 0 (20_memory.md
R53; 40_register_interface.md R94). -/
def Obligations.AccessesStayInTheWindow : Prop :=
  ∀ s t : State, Inv s → step s = .next t → ∃ new, t.trace = s.trace ++ new ∧
    (∀ a ∈ new, InWindow s a ∧ a.addr + a.op.size ≤ 2 ^ s.cfg.aw) ∧
    (new ≠ [] → Working s.regs.state ∧ s.regs.waiting = false)

/-- The results stay from DONE = 1 (and in IDLE) until a reset or the next accepted START or INIT (10_state.md R34; 70 R210). -/
def Obligations.ResultsHoldUntilNextOperation : Prop :=
  ∀ s t : State, step s = .next t → Terminal s.regs.state ∨ s.regs.state = stIdle → s.ports.rst = false →
    (s.regs.state = stIdle → s.ports.cmd ≠ some 1 ∧ s.ports.cmd ≠ some 2) →
    t.regs.outcome = s.regs.outcome ∧ t.regs.stage = s.regs.stage ∧ t.regs.value = s.regs.value ∧
      t.regs.outLen = s.regs.outLen ∧ t.regs.outBuf = s.regs.outBuf ∧ t.trace = s.trace

/-- No cancellation (41_acquisition_fsm.md R103, R116): in a working state a host-command step changes no register and makes no access,
whatever the command. -/
def Obligations.CommandsCannotDisturbAnOperation : Prop :=
  ∀ s : State, CfgLegal s.cfg → Working s.regs.state → s.ports.rst = false → s.ports.cmd ≠ none →
    (s.regs.waiting = false ∨ s.ports.tick = false) →
    ∃ t, step s = .next t ∧ t.regs = s.regs ∧ t.trace = s.trace ∧ t.dev = s.dev

/-- A step does not read the trace, nor the result of an operation executed on its own: two states that differ only there go on alike
(00_scope.md R16: the trace is not a register of the block). -/
def Obligations.StepDoesNotReadTheRecord : Prop :=
  ∀ (s t : State) (tr : List Access) (v : Result), step s = .next t →
    ∃ new, t.trace = s.trace ++ new ∧ step { s with trace := tr, ret := v } = .next { t with trace := tr ++ new, ret := v }

/-- In a terminal state the outcome can be read off the result registers, and it names the state reached (10_state.md R36). -/
def Obligations.DoneShowsTheOutcome : Prop :=
  ∀ s : State, Inv s →
    (s.regs.state = stSuccess → acquisitionOutcome s.regs = some (.success s.regs.value)) ∧
    (s.regs.state = stTimeout → ∃ st, s.regs.stage = some st ∧ acquisitionOutcome s.regs = some (.timeout st)) ∧
    (s.regs.state = stFault → s.regs.stage = none ∧ acquisitionOutcome s.regs = some .windowFault)

/-- Termination (41_acquisition_fsm.md R117): from the start of an acquisition, with every awaited TICK delivered and no stuck data
read, DONE = 1 is reached within 3 * BOUND + 2 state operations and 3 * (BOUND - 1) suspend expiries, whatever the device answers. -/
def Obligations.AcquisitionTerminates : Prop :=
  ∀ s : State, CfgLegal s.cfg → AtAcquisitionStart s → QuietEnvironment s → dataReadStuck s = false →
    ∃ k t, k ≤ (3 * s.cfg.bound + 2) + 3 * (s.cfg.bound - 1) ∧ Sys2Proof.core.run k s = .next t ∧ done t.regs = true

/-- The attach-time configuration (41_acquisition_fsm.md R101, R112, R117): from INIT with CFGIDX = 0, N_CFG + 1 state operations lead to
SUCCESS, and the trace gains CFG_TABLE in index order and nothing else. -/
def Obligations.AttachWritesTheTable : Prop :=
  ∀ s : State, CfgLegal s.cfg → s.regs.state = stInit → s.regs.cfgIdx = 0 → s.regs.waiting = false → QuietEnvironment s →
    ∃ t, Sys2Proof.core.run (s.cfg.nCfg + 1) s = .next t ∧ t.regs.state = stSuccess ∧ t.regs.outcome = .success ∧
      t.trace = s.trace ++ s.cfg.cfgTable.map fun e => ⟨.wrConfig, s.regs.lBase + e.offset, e.byte.zeroExtend 16⟩

/-- The bounds on the trace of one acquisition (20_memory.md R66): at every moment of it, however the host's commands and the ticks fall,
at most 3 * BOUND status reads, BOUND + 1 data reads, one trigger write and no configuration write. -/
def Obligations.AcquisitionTraceIsBounded : Prop :=
  ∀ s : State, AtAcquisitionStart s → NoResetNoAck s → ∀ k t, Sys2Proof.core.run k s = .next t →
    ∃ new, t.trace = s.trace ++ new ∧ countOp .rdStatus new ≤ 3 * s.cfg.bound ∧ countOp .rdData new ≤ s.cfg.bound + 1 ∧
      countOp .wrTrigger new ≤ 1 ∧ countOp .wrConfig new = 0

/-- What the trace of one acquisition holds by its outcome (20_memory.md R66; 41_acquisition_fsm.md R119): SUCCESS: exactly one trigger
write and a data read last; waiting-for-device: BOUND status reads and nothing else; discarding-data: no trigger write and a data
read last; waiting-for-data: exactly one trigger write, then exactly BOUND status reads. -/
def Obligations.OutcomeTellsTheTrace : Prop :=
  ∀ s : State, AtAcquisitionStart s → NoResetNoAck s → ∀ k t, Sys2Proof.core.run k s = .next t →
    ∃ new, t.trace = s.trace ++ new ∧
      (t.regs.state = stSuccess → countOp .wrTrigger new = 1 ∧ ∃ rest a, new = rest ++ [a] ∧ a.op = .rdData) ∧
      (t.regs.stage = some .waitingForDevice → new.length = s.cfg.bound ∧ ∀ a ∈ new, a.op = .rdStatus) ∧
      (t.regs.stage = some .discardingData → countOp .wrTrigger new = 0 ∧
        ∃ rest a b, new = rest ++ [a, b] ∧ a.op = .rdStatus ∧ b.op = .rdData) ∧
      (t.regs.stage = some .waitingForData → ∃ rest a polls, new = rest ++ [a] ++ polls ∧ a.op = .wrTrigger ∧
        countOp .wrTrigger rest = 0 ∧ polls.length = s.cfg.bound ∧ ∀ x ∈ polls, x.op = .rdStatus)
end

