-- ==== Sys2Proof/Laws/Decode.lean ====
section
/-! SUPPORT. The operand bytes: splitting and joining are inverse, in both directions. -/

namespace Sys2Proof

theorem joinHalf_split (v : Half) : joinHalf (byteOf v 0) (byteOf v 1) = v := by
  apply BitVec.eq_of_getLsbD_eq
  intro i hi
  simp only [joinHalf, byteOf, BitVec.getLsbD_append, BitVec.getLsbD_extractLsb']
  split_ifs
  all_goals
    rw [Bool.and_eq_right_iff_imp.mpr]
    · congr 1; omega
    · intro _; simp; omega

theorem joinLong_split (v : Long) :
    joinLong (byteOf v 0) (byteOf v 1) (byteOf v 2) (byteOf v 3) (byteOf v 4) (byteOf v 5) (byteOf v 6) (byteOf v 7) = v := by
  apply BitVec.eq_of_getLsbD_eq
  intro i hi
  simp only [joinLong, byteOf, BitVec.getLsbD_append, BitVec.getLsbD_extractLsb']
  split_ifs
  all_goals
    rw [Bool.and_eq_right_iff_imp.mpr]
    · congr 1; omega
    · intro _; simp; omega

/-- The lowest byte of a byte string written high to low. -/
theorem byteOf_append_zero {n : Nat} (x : BitVec n) (b : Byte) : byteOf (x ++ b) 0 = b := by
  apply BitVec.eq_of_getLsbD_eq
  intro i hi
  simp only [byteOf, BitVec.getLsbD_extractLsb', BitVec.getLsbD_append, hi, decide_true, Bool.true_and]
  rw [if_pos (by omega)]
  congr 1
  omega

/-- The bytes above the lowest. -/
theorem byteOf_append_succ {n : Nat} (x : BitVec n) (b : Byte) (k : Nat) : byteOf (x ++ b) (k + 1) = byteOf x k := by
  apply BitVec.eq_of_getLsbD_eq
  intro i hi
  simp only [byteOf, BitVec.getLsbD_extractLsb', BitVec.getLsbD_append, hi, decide_true, Bool.true_and]
  rw [if_neg (by omega)]
  congr 1
  omega

theorem byteOf_byte (b : Byte) : byteOf b 0 = b := by
  apply BitVec.eq_of_getLsbD_eq
  intro i hi
  simp [byteOf, hi]

theorem splitHalf_join (b0 b1 : Byte) : splitHalf (joinHalf b0 b1) = [b0, b1] := by
  simp only [splitHalf, joinHalf, List.cons.injEq, and_true]
  exact ⟨byteOf_append_zero _ _, (byteOf_append_succ _ _ 0).trans (byteOf_byte b1)⟩

theorem splitLong_join (b0 b1 b2 b3 b4 b5 b6 b7 : Byte) :
    splitLong (joinLong b0 b1 b2 b3 b4 b5 b6 b7) = [b0, b1, b2, b3, b4, b5, b6, b7] := by
  simp only [splitLong, joinLong, List.cons.injEq, and_true]
  have up {n : Nat} {x : BitVec n} {c : Byte} {k : Nat} (b : Byte) (h : byteOf x k = c) : byteOf (x ++ b) (k + 1) = c :=
    (byteOf_append_succ x b k).trans h
  exact ⟨byteOf_append_zero _ _, up _ (byteOf_append_zero _ _), up _ (up _ (byteOf_append_zero _ _)),
    up _ (up _ (up _ (byteOf_append_zero _ _))), up _ (up _ (up _ (up _ (byteOf_append_zero _ _)))),
    up _ (up _ (up _ (up _ (up _ (byteOf_append_zero _ _))))),
    up _ (up _ (up _ (up _ (up _ (up _ (byteOf_append_zero _ _)))))),
    up _ (up _ (up _ (up _ (up _ (up _ (up _ (byteOf_byte _)))))))⟩

end Sys2Proof
end

