-- ==== Sys2Proof/Laws/Formatter.lean ====
section
/-! SUPPORT. Digit strings: what the digit producer, the padding and the reading of a string do (43_formatter.md R151 to R153). -/

namespace Sys2Proof.Machine

theorem digitByte_toNat {d : Nat} (h : d < 10) : (digitByte d).toNat = 0x30 + d := by
  rw [digitByte, BitVec.toNat_ofNat]
  exact Nat.mod_eq_of_lt (by omega)

theorem digitsValue_append (a b : List Byte) :
    digitsValue (a ++ b) = digitsValue a * 10 ^ b.length + digitsValue b := by
  induction b using List.reverseRecOn with
  | nil => simp [digitsValue]
  | append_singleton b x ih =>
    rw [← List.append_assoc]
    simp only [digitsValue, List.foldl_append, List.foldl_cons, List.foldl_nil, List.length_append,
      List.length_singleton] at *
    rw [ih, pow_succ]
    ring

theorem digitsValue_zeros (n : Nat) : digitsValue (List.replicate n chZero) = 0 := by
  induction n with
  | zero => rfl
  | succ n ih => rw [List.replicate_succ', digitsValue_append, ih]; rfl

/-- A string of n digits reads as less than 10^n. -/
theorem digitsValue_lt (l : List Byte) (h : AllDigits l) : digitsValue l < 10 ^ l.length := by
  induction l using List.reverseRecOn with
  | nil => decide
  | append_singleton l x ih =>
    rw [AllDigits, List.forall_mem_append] at h
    have := ih h.1
    have hx := h.2 x (by simp)
    rw [digitsValue_append]
    simp [digitsValue] at *
    rw [pow_succ]
    omega

/-- Everything about the digits produced with enough fuel: digits, at least one, reading as v, the first not 0 unless v is, one
digit alone below ten. -/
theorem decimalDigits_spec (n v : Nat) (h : v < 10 ^ (n + 1)) :
    AllDigits (decimalDigits (n + 1) v) ∧ decimalDigits (n + 1) v ≠ [] ∧ digitsValue (decimalDigits (n + 1) v) = v ∧
      (decimalDigits (n + 1) v).length ≤ n + 1 ∧ ((decimalDigits (n + 1) v).head? = some 0x30 → v = 0) ∧
      (v < 10 → (decimalDigits (n + 1) v).length = 1) := by
  induction n generalizing v with
  | zero =>
    have hv : v < 10 := by simpa using h
    simp only [decimalDigits, if_pos hv]
    have := digitByte_toNat hv
    refine ⟨by simp [AllDigits]; omega, by simp, by simp [digitsValue]; omega, by simp, ?_, by simp⟩
    intro e
    simp at e
    rw [e] at this
    simp at this
    omega
  | succ n ih =>
    rw [decimalDigits]
    by_cases hv : v < 10
    · rw [if_pos hv]
      have := digitByte_toNat hv
      refine ⟨by simp [AllDigits]; omega, by simp, by simp [digitsValue]; omega, by simp, ?_, by simp⟩
      intro e
      simp at e
      rw [e] at this
      simp at this
      omega
    · rw [if_neg hv]
      obtain ⟨h1, h2, h3, h4, h5, h6⟩ := ih (v / 10)
        (by rw [Nat.div_lt_iff_lt_mul (by norm_num)]; rw [pow_succ] at h; exact h)
      have := digitByte_toNat (Nat.mod_lt v (by norm_num : 10 > 0))
      refine ⟨?_, by simp, ?_, by simp; omega, ?_, fun h => absurd h hv⟩
      · rw [AllDigits, List.forall_mem_append]; exact ⟨h1, by simp; omega⟩
      · rw [digitsValue_append, h3]; simp [digitsValue]; omega
      · rw [List.head?_append_of_ne_nil _ h2]
        intro e
        have := h5 e
        omega

/-- A number below 10^(k+1) has at most k + 1 digits, whatever the fuel. -/
theorem decimalDigits_length_le (n v k : Nat) (hv : v < 10 ^ (k + 1)) : (decimalDigits n v).length ≤ k + 1 := by
  induction n generalizing v k with
  | zero => simp [decimalDigits]
  | succ n ih =>
    rw [decimalDigits]
    split_ifs with h
    · simp
    · cases k with
      | zero => simp at hv; omega
      | succ k =>
        have := ih (v / 10) k (by rw [Nat.div_lt_iff_lt_mul (by norm_num)]; rw [pow_succ] at hv; exact hv)
        simp
        omega

/-- The padding of FORMAT adds zeros up to the length asked for and does not change what the string reads as. -/
theorem padLeft_spec (n : Nat) (l : List Byte) (h : AllDigits l) :
    AllDigits (padLeft n l) ∧ digitsValue (padLeft n l) = digitsValue l ∧ (padLeft n l).length = max l.length n := by
  refine ⟨?_, ?_, ?_⟩
  · rw [AllDigits, padLeft, List.forall_mem_append]
    refine ⟨fun b hb => ?_, h⟩
    rw [List.mem_replicate] at hb
    rw [hb.2]
    decide
  · rw [padLeft, digitsValue_append, digitsValue_zeros, Nat.zero_mul, Nat.zero_add]
  · simp [padLeft]
    omega

end Sys2Proof.Machine
end

