-- ==== Sys2Proof/Laws/State.lean ====
section
/-! SUPPORT. The named updates of State, field by field: each is true by rfl. -/

namespace Sys2Proof.Machine

variable (s : State) (r : Regs) (d : Device) (p : Ports) (f : List Ports) (v : Result) (a : Access)

@[simp] theorem State.setRegs_cfg : (s.setRegs r).cfg = s.cfg := rfl
@[simp] theorem State.setRegs_regs : (s.setRegs r).regs = r := rfl
@[simp] theorem State.setRegs_ports : (s.setRegs r).ports = s.ports := rfl
@[simp] theorem State.setRegs_future : (s.setRegs r).future = s.future := rfl
@[simp] theorem State.setRegs_dev : (s.setRegs r).dev = s.dev := rfl
@[simp] theorem State.setRegs_trace : (s.setRegs r).trace = s.trace := rfl
@[simp] theorem State.setRegs_ret : (s.setRegs r).ret = s.ret := rfl

@[simp] theorem State.setDev_cfg : (s.setDev d).cfg = s.cfg := rfl
@[simp] theorem State.setDev_regs : (s.setDev d).regs = s.regs := rfl
@[simp] theorem State.setDev_ports : (s.setDev d).ports = s.ports := rfl
@[simp] theorem State.setDev_future : (s.setDev d).future = s.future := rfl
@[simp] theorem State.setDev_dev : (s.setDev d).dev = d := rfl
@[simp] theorem State.setDev_trace : (s.setDev d).trace = s.trace := rfl
@[simp] theorem State.setDev_ret : (s.setDev d).ret = s.ret := rfl

@[simp] theorem State.setPorts_cfg : (s.setPorts p f).cfg = s.cfg := rfl
@[simp] theorem State.setPorts_regs : (s.setPorts p f).regs = s.regs := rfl
@[simp] theorem State.setPorts_ports : (s.setPorts p f).ports = p := rfl
@[simp] theorem State.setPorts_future : (s.setPorts p f).future = f := rfl
@[simp] theorem State.setPorts_dev : (s.setPorts p f).dev = s.dev := rfl
@[simp] theorem State.setPorts_trace : (s.setPorts p f).trace = s.trace := rfl
@[simp] theorem State.setPorts_ret : (s.setPorts p f).ret = s.ret := rfl

@[simp] theorem State.setRet_cfg : (s.setRet v).cfg = s.cfg := rfl
@[simp] theorem State.setRet_regs : (s.setRet v).regs = s.regs := rfl
@[simp] theorem State.setRet_ports : (s.setRet v).ports = s.ports := rfl
@[simp] theorem State.setRet_future : (s.setRet v).future = s.future := rfl
@[simp] theorem State.setRet_dev : (s.setRet v).dev = s.dev := rfl
@[simp] theorem State.setRet_trace : (s.setRet v).trace = s.trace := rfl
@[simp] theorem State.setRet_ret : (s.setRet v).ret = v := rfl

@[simp] theorem State.logAccess_cfg : (s.logAccess a).cfg = s.cfg := rfl
@[simp] theorem State.logAccess_regs : (s.logAccess a).regs = s.regs := rfl
@[simp] theorem State.logAccess_ports : (s.logAccess a).ports = s.ports := rfl
@[simp] theorem State.logAccess_future : (s.logAccess a).future = s.future := rfl
@[simp] theorem State.logAccess_dev : (s.logAccess a).dev = s.dev := rfl
@[simp] theorem State.logAccess_trace : (s.logAccess a).trace = s.trace ++ [a] := rfl
@[simp] theorem State.logAccess_ret : (s.logAccess a).ret = s.ret := rfl

@[simp] theorem readStatus_cfg : (readStatus s).cfg = s.cfg := rfl
@[simp] theorem readStatus_regs : (readStatus s).regs = s.regs := rfl
@[simp] theorem readStatus_ports : (readStatus s).ports = s.ports := rfl
@[simp] theorem readStatus_future : (readStatus s).future = s.future := rfl
@[simp] theorem readStatus_dev : (readStatus s).dev = s.dev.afterStatus := rfl
@[simp] theorem readStatus_trace : (readStatus s).trace = s.trace ++ [statusAccess s] := rfl
@[simp] theorem readStatus_ret : (readStatus s).ret = s.ret := rfl

@[simp] theorem readData_cfg : (readData s).cfg = s.cfg := rfl
@[simp] theorem readData_regs : (readData s).regs = s.regs := rfl
@[simp] theorem readData_ports : (readData s).ports = s.ports := rfl
@[simp] theorem readData_future : (readData s).future = s.future := rfl
@[simp] theorem readData_dev : (readData s).dev = s.dev.afterData := rfl
@[simp] theorem readData_trace : (readData s).trace = s.trace ++ [dataAccess s] := rfl
@[simp] theorem readData_ret : (readData s).ret = s.ret := rfl

@[simp] theorem writeTrigger_cfg : (writeTrigger s).cfg = s.cfg := rfl
@[simp] theorem writeTrigger_regs : (writeTrigger s).regs = s.regs := rfl
@[simp] theorem writeTrigger_ports : (writeTrigger s).ports = s.ports := rfl
@[simp] theorem writeTrigger_future : (writeTrigger s).future = s.future := rfl
@[simp] theorem writeTrigger_dev : (writeTrigger s).dev = s.dev := rfl
@[simp] theorem writeTrigger_trace : (writeTrigger s).trace = s.trace ++ [triggerAccess s] := rfl
@[simp] theorem writeTrigger_ret : (writeTrigger s).ret = s.ret := rfl

@[simp] theorem writeConfig_cfg (off : Nat) (b : Byte) : (writeConfig off b s).cfg = s.cfg := rfl
@[simp] theorem writeConfig_regs (off : Nat) (b : Byte) : (writeConfig off b s).regs = s.regs := rfl
@[simp] theorem writeConfig_ports (off : Nat) (b : Byte) : (writeConfig off b s).ports = s.ports := rfl
@[simp] theorem writeConfig_future (off : Nat) (b : Byte) : (writeConfig off b s).future = s.future := rfl
@[simp] theorem writeConfig_dev (off : Nat) (b : Byte) : (writeConfig off b s).dev = s.dev := rfl
@[simp] theorem writeConfig_trace (off : Nat) (b : Byte) : (writeConfig off b s).trace = s.trace ++ [configAccess s off b] := rfl
@[simp] theorem writeConfig_ret (off : Nat) (b : Byte) : (writeConfig off b s).ret = s.ret := rfl

end Sys2Proof.Machine
end

