-- ==== Sys2Proof/Laws/Ops.lean ====
section
/-! SUPPORT. One lemma per shared operation: what it can answer. Later proofs cite these and do not unfold the operation. -/

namespace Sys2Proof.Machine

variable {s t : State} {k : StepOutcome} {r : Regs} {i : Instr}

/-! ### When an operation has its effect -/

theorem guardLegal_of_legal (h : CfgLegal s.cfg) : guardLegal s k = k := if_pos h

theorem guardLegal_of_illegal (h : ¬ CfgLegal s.cfg) : guardLegal s k = .refused .illegalConfig := if_neg h

theorem guardLegal_eq_next : guardLegal s k = .next t ↔ CfgLegal s.cfg ∧ k = .next t := by
  by_cases h : CfgLegal s.cfg
  · rw [guardLegal_of_legal h]; exact ⟨fun e => ⟨h, e⟩, fun e => e.2⟩
  · rw [guardLegal_of_illegal h]; exact ⟨fun e => (by cases e), fun e => absurd e.1 h⟩

theorem engineOp_enabled {code : StateCode} (h : CfgLegal s.cfg) (hs : s.regs.state = code)
    (hw : s.regs.waiting = false) : engineOp code s k = k := by
  rw [engineOp, guardLegal_of_legal h, if_pos ⟨hs, hw⟩]

theorem engineOp_eq_next {code : StateCode} : engineOp code s k = .next t ↔
    CfgLegal s.cfg ∧ ((s.regs.state = code ∧ s.regs.waiting = false ∧ k = .next t) ∨
      (¬ (s.regs.state = code ∧ s.regs.waiting = false) ∧ t = s)) := by
  rw [engineOp, guardLegal_eq_next]
  refine and_congr_right fun _ => ?_
  by_cases he : s.regs.state = code ∧ s.regs.waiting = false
  · rw [if_pos he]
    exact ⟨fun e => .inl ⟨he.1, he.2, e⟩, fun e => e.elim (fun x => x.2.2) (fun x => absurd he x.1)⟩
  · rw [if_neg he]
    exact ⟨fun e => .inr ⟨he, by cases e; rfl⟩, fun e => e.elim (fun x => absurd ⟨x.1, x.2.1⟩ he) (fun x => by rw [x.2])⟩

theorem hostCommand_eq_next {accepted : Bool} : hostCommand accepted s r = .next t ↔
    CfgLegal s.cfg ∧ t = if accepted then s.setRegs r else s := by
  rw [hostCommand, guardLegal_eq_next]
  exact and_congr_right fun _ => ⟨fun e => by cases e; rfl, fun e => by rw [e]⟩

theorem returning_eq_next {v : Result} : returning s v = .next t ↔ CfgLegal s.cfg ∧ t = s.setRet v := by
  rw [returning, guardLegal_eq_next]
  exact and_congr_right fun _ => ⟨fun e => by cases e; rfl, fun e => by rw [e]⟩

/-- Under an illegal configuration every operation is refused. -/
theorem exec_of_illegal (i : Instr) (h : ¬ CfgLegal s.cfg) : exec i s = .refused .illegalConfig := by
  cases i <;> exact guardLegal_of_illegal h

theorem cfgLegal_of_exec {i : Instr} (h : exec i s = .next t) : CfgLegal s.cfg :=
  Decidable.byContradiction fun hn => by rw [exec_of_illegal i hn] at h; cases h

/-! ### The environment -/

@[simp] theorem advance_cfg (s : State) : (advance s).cfg = s.cfg := by unfold advance; split <;> rfl
@[simp] theorem advance_regs (s : State) : (advance s).regs = s.regs := by unfold advance; split <;> rfl
@[simp] theorem advance_dev (s : State) : (advance s).dev = s.dev := by unfold advance; split <;> rfl
@[simp] theorem advance_trace (s : State) : (advance s).trace = s.trace := by unfold advance; split <;> rfl
@[simp] theorem advance_ret (s : State) : (advance s).ret = s.ret := by unfold advance; split <;> rfl

theorem settle_eq_next : settle k = .next t ↔ ∃ u, k = .next u ∧ t = advance u := by
  cases k with
  | next u => exact ⟨fun e => ⟨u, rfl, by cases e; rfl⟩, fun ⟨_, e, h⟩ => by cases e; rw [h]; rfl⟩
  | fault f => exact ⟨fun e => (by cases e), fun ⟨_, e, _⟩ => (by cases e)⟩
  | refused f => exact ⟨fun e => (by cases e), fun ⟨_, e, _⟩ => (by cases e)⟩

/-! ### Which operation a step executes -/

/-- The state operation of every code; from 0xA on the code is reserved. -/
theorem decode_state (code : StateCode) :
    (code = stIdle ∧ decode ⟨.state, code, []⟩ = .ok .idle) ∨
    (code = stWaitReadyPre ∧ decode ⟨.state, code, []⟩ = .ok .waitReadyPre) ∨
    (code = stDrain ∧ decode ⟨.state, code, []⟩ = .ok .drain) ∨
    (code = stTrigger ∧ decode ⟨.state, code, []⟩ = .ok .trigger) ∨
    (code = stWaitReadyPost ∧ decode ⟨.state, code, []⟩ = .ok .waitReadyPost) ∨
    (code = stRead ∧ decode ⟨.state, code, []⟩ = .ok .read) ∨
    (code = stSuccess ∧ decode ⟨.state, code, []⟩ = .ok .success) ∨
    (code = stTimeout ∧ decode ⟨.state, code, []⟩ = .ok .timeout) ∨
    (code = stFault ∧ decode ⟨.state, code, []⟩ = .ok .fault) ∨
    (code = stInit ∧ decode ⟨.state, code, []⟩ = .ok .initState) ∨
    (9 < code.toNat ∧ decode ⟨.state, code, []⟩ = .error .reservedState) := by
  revert code; decide

/-- The state operation of a named code. -/
theorem decode_state_ok {code : StateCode} {i : Instr} (h : decode ⟨.state, code, []⟩ = .ok i) :
    (code = stIdle ∧ i = .idle) ∨ (code = stWaitReadyPre ∧ i = .waitReadyPre) ∨ (code = stDrain ∧ i = .drain) ∨
    (code = stTrigger ∧ i = .trigger) ∨ (code = stWaitReadyPost ∧ i = .waitReadyPost) ∨ (code = stRead ∧ i = .read) ∨
    (code = stSuccess ∧ i = .success) ∨ (code = stTimeout ∧ i = .timeout) ∨ (code = stFault ∧ i = .fault) ∨
    (code = stInit ∧ i = .initState) := by
  rcases decode_state code with ⟨e, hd⟩ | ⟨e, hd⟩ | ⟨e, hd⟩ | ⟨e, hd⟩ | ⟨e, hd⟩ | ⟨e, hd⟩ | ⟨e, hd⟩ | ⟨e, hd⟩ |
    ⟨e, hd⟩ | ⟨e, hd⟩ | ⟨e, hd⟩ <;> rw [hd] at h <;> cases h <;> simp [e]

/-- The host command of a code: all four are used. -/
theorem decode_cmd (c : BitVec 2) : (c = 0 ∧ decode ⟨.cmd, c.zeroExtend 4, []⟩ = .ok .nop) ∨
    (c = 1 ∧ decode ⟨.cmd, c.zeroExtend 4, []⟩ = .ok .start) ∨ (c = 2 ∧ decode ⟨.cmd, c.zeroExtend 4, []⟩ = .ok .init) ∨
    (c = 3 ∧ decode ⟨.cmd, c.zeroExtend 4, []⟩ = .ok .ack) := by
  revert c; decide

/-- What a step that answers a next state has done. -/
theorem step_eq_next (h : step s = .next t) : CfgLegal s.cfg ∧ ∃ u, t = advance u ∧
    ((fetch s = .ok none ∧ u = s) ∨ ∃ i, fetch s = .ok (some i) ∧ exec i s = .next u) := by
  unfold step at h
  split at h
  · rename_i i hi
    obtain ⟨u, hu, rfl⟩ := settle_eq_next.mp h
    exact ⟨cfgLegal_of_exec hu, u, rfl, .inr ⟨i, hi, hu⟩⟩
  · rename_i hn
    obtain ⟨u, hu, rfl⟩ := settle_eq_next.mp h
    obtain ⟨hl, e⟩ := guardLegal_eq_next.mp hu
    cases e
    exact ⟨hl, s, rfl, .inl ⟨hn, rfl⟩⟩
  · obtain ⟨_, e⟩ := guardLegal_eq_next.mp h
    cases e

/-- Which operation is selected, by the ports, WAITING and STATE. -/
theorem fetch_cases (h : fetch s = .ok (some i)) :
    (s.ports.rst = true ∧ i = .reset) ∨
    (s.ports.rst = false ∧ s.regs.waiting = true ∧ s.ports.tick = true ∧ i = .suspendExpire) ∨
    (s.ports.rst = false ∧ (s.regs.waiting = false ∨ s.ports.tick = false) ∧ ∃ c, s.ports.cmd = some c ∧
      ((c = 0 ∧ i = .nop) ∨ (c = 1 ∧ i = .start) ∨ (c = 2 ∧ i = .init) ∨ (c = 3 ∧ i = .ack))) ∨
    (s.ports.rst = false ∧ s.ports.cmd = none ∧ s.regs.waiting = false ∧
      decode ⟨.state, s.regs.state, []⟩ = .ok i) := by
  unfold fetch at h
  cases hr : s.ports.rst with
  | true =>
    rw [hr, if_pos rfl] at h
    exact .inl ⟨rfl, by cases h; rfl⟩
  | false =>
    rw [hr, if_neg Bool.false_ne_true] at h
    by_cases hw : (s.regs.waiting && s.ports.tick) = true
    · rw [if_pos hw] at h
      rw [Bool.and_eq_true] at hw
      exact .inr (.inl ⟨rfl, hw.1, hw.2, by cases h; rfl⟩)
    · rw [if_neg hw] at h
      have hw' : s.regs.waiting = false ∨ s.ports.tick = false := by
        cases h1 : s.regs.waiting <;> cases h2 : s.ports.tick <;> simp_all
      cases hc : s.ports.cmd with
      | some c =>
        rw [hc] at h
        refine .inr (.inr (.inl ⟨rfl, hw', c, rfl, ?_⟩))
        rcases decode_cmd c with ⟨e, hd⟩ | ⟨e, hd⟩ | ⟨e, hd⟩ | ⟨e, hd⟩ <;>
          · simp only [hd] at h
            cases h
            simp [e]
      | none =>
        rw [hc] at h
        simp only at h
        cases hwt : s.regs.waiting with
        | true => rw [hwt, if_pos rfl] at h; cases h
        | false =>
          rw [hwt, if_neg Bool.false_ne_true] at h
          refine .inr (.inr (.inr ⟨rfl, rfl, rfl, ?_⟩))
          cases hd : decode ⟨.state, s.regs.state, []⟩ with
          | ok j => rw [hd] at h; cases h; rfl
          | error e => rw [hd] at h; cases h

/-! ### The output registers (43_formatter.md R158) -/

theorem truncLen_le_bytes (full : List Byte) (cap : Half) : truncLen full cap ≤ outBufBytes :=
  le_trans (min_le_right _ _) (min_le_right _ _)

theorem truncLen_le_length (full : List Byte) (cap : Half) : truncLen full cap ≤ full.length := min_le_left _ _

theorem truncLen_toNat (full : List Byte) (cap : Half) :
    (BitVec.ofNat 6 (truncLen full cap)).toNat = truncLen full cap := by
  have h : truncLen full cap ≤ 32 := truncLen_le_bytes full cap
  rw [BitVec.toNat_ofNat]
  exact Nat.mod_eq_of_lt (by omega)

theorem truncBuf_length (full : List Byte) (cap : Half) : (truncBuf full cap).length = outBufBytes := by
  have h1 := truncLen_le_bytes full cap
  have h2 := truncLen_le_length full cap
  simp only [truncBuf, List.length_append, List.length_take, List.length_replicate]
  omega

theorem truncBuf_delivered (full : List Byte) (cap : Half) (i : Nat) (h : i < truncLen full cap) :
    (truncBuf full cap)[i]? = full[i]? := by
  have h2 := truncLen_le_length full cap
  rw [truncBuf, List.getElem?_append_left (by rw [List.length_take]; omega), List.getElem?_take_of_lt h]

theorem truncBuf_zero (full : List Byte) (cap : Half) (i : Nat) (h : truncLen full cap ≤ i) (hi : i < outBufBytes) :
    (truncBuf full cap)[i]? = some 0 := by
  have h2 := truncLen_le_length full cap
  have hl : (full.take (truncLen full cap)).length = truncLen full cap := by rw [List.length_take]; omega
  rw [truncBuf, List.getElem?_append_right (by omega), hl, List.getElem?_replicate, if_pos (by omega)]

/-! ### Entering and leaving a terminal state -/

/-- Everything raise Timeout writes (60_exceptions.md R175). -/
theorem raiseTimeout_eq (c : Cfg) (st : Stage) (r : Regs) : raiseTimeout c st r =
    { r with
      stage := some st, outcome := .timeout, value := 0,
      outLen := BitVec.ofNat 6 (truncLen (timeoutReport c st) r.lCap), outBuf := truncBuf (timeoutReport c st) r.lCap,
      waiting := false, state := stTimeout } := rfl

/-- Everything raise WindowFault writes (R176). -/
theorem raiseWindowFault_eq (r : Regs) : raiseWindowFault r =
    { r with
      stage := none, outcome := .fault, value := 0, outLen := 0, outBuf := List.replicate outBufBytes 0,
      state := stFault } := by
  have h : truncLen [] r.lCap = 0 := Nat.le_zero.mp (truncLen_le_length [] r.lCap)
  simp [raiseWindowFault, endOperation, writeOutput, truncBuf, h]

/-- START and INIT write every register but STATE, so nothing of the previous operation is left (10_state.md R20). -/
theorem beginOperation_eq (base len : Nat) (cap : Half) (r : Regs) : beginOperation base len cap r =
    { Regs.reset with state := r.state, lBase := base, lLen := len, lCap := cap } := rfl

/-! ### The outcome of a poll -/

/-- A failed check either raises the timeout or suspends (41_acquisition_fsm.md R104). -/
theorem pollFailed_cases (c : Cfg) (st : Stage) (r : Regs) :
    (r.retry.toNat + 1 = c.bound ∧ pollFailed c st r = raiseTimeout c st { r with retry := r.retry + 1 }) ∨
    (r.retry.toNat + 1 ≠ c.bound ∧ pollFailed c st r = { r with retry := r.retry + 1, waiting := true }) := by
  by_cases h : r.retry.toNat + 1 = c.bound
  · exact .inl ⟨h, if_pos h⟩
  · exact .inr ⟨h, if_neg h⟩

theorem readyPoll_passed {st : Stage} {next : StateCode} (h : isReady s.cfg (statusValue s) = true) :
    readyPoll st next s = (readStatus s).setRegs { s.regs with status := statusValue s, retry := 0, state := next } :=
  if_pos h

theorem readyPoll_failed {st : Stage} {next : StateCode} (h : isReady s.cfg (statusValue s) = false) :
    readyPoll st next s = (readStatus s).setRegs (pollFailed s.cfg st { s.regs with status := statusValue s }) :=
  if_neg (by rw [h]; exact Bool.false_ne_true)

theorem drainPoll_passed (h : isNotEmpty s.cfg (statusValue s) = false) :
    drainPoll s = (readStatus s).setRegs { s.regs with status := statusValue s, retry := 0, state := stTrigger } :=
  if_neg (by rw [h]; exact Bool.false_ne_true)

theorem drainPoll_failed (h : isNotEmpty s.cfg (statusValue s) = true) :
    drainPoll s = (readData (readStatus s)).setRegs
      (pollFailed s.cfg .discardingData { s.regs with status := statusValue s }) :=
  if_pos h

/-! ### Flags and operand forms -/

/-- isReady, bit by bit (00_scope.md R17). -/
theorem isReady_eq (c : Cfg) (b : Byte) : isReady c b = decide ((b &&& c.readyMask ≠ 0) ↔ c.readyPol = true) := by
  unfold isReady bitSet
  cases c.readyPol <;> by_cases hb : b &&& c.readyMask = 0#8 <;> simp [hb]

/-- isNotEmpty, bit by bit (R17). -/
theorem isNotEmpty_eq (c : Cfg) (b : Byte) : isNotEmpty c b = decide ((b &&& c.neMask ≠ 0) ↔ c.nePol = true) := by
  unfold isNotEmpty bitSet
  cases c.nePol <;> by_cases hb : b &&& c.neMask = 0#8 <;> simp [hb]

theorem done_iff (r : Regs) : done r = true ↔ r.state = stSuccess ∨ r.state = stTimeout ∨ r.state = stFault := by
  simp [done, or_assoc]

/-- When a data read completes (20_memory.md R56). -/
theorem dataReadStuck_eq_false (s : State) : dataReadStuck s = false ↔
    (s.cfg.busAllowsMisaligned = true ∨ (s.regs.lBase + s.cfg.offData) % 2 = 0) := by
  unfold dataReadStuck effAddr
  cases s.cfg.busAllowsMisaligned <;> simp

theorem contained_acquireOffs (c : Cfg) (len : Nat) : Contained len (acquireOffs c) ↔
    (c.offStatus + 1 ≤ len ∧ c.offData + 2 ≤ len ∧ c.offTrigger + 1 ≤ len) := by
  simp only [Contained, acquireOffs, List.forall_mem_cons]
  exact ⟨fun h => ⟨h.1, h.2.1, h.2.2.1⟩, fun h => ⟨h.1, h.2.1, h.2.2, fun _ hx => absurd hx List.not_mem_nil⟩⟩

theorem contained_initOffs (c : Cfg) (len : Nat) : Contained len (initOffs c) ↔ ∀ e ∈ c.cfgTable, e.offset + 1 ≤ len := by
  simp only [Contained, initOffs, List.forall_mem_map]

theorem enterOrFault_ok {offs : List (Nat × Nat)} {target : StateCode}
    (h : WindowOK s.cfg.aw (sampledBase s) (sampledLen s) s.ports.winValid offs) :
    enterOrFault s offs target r = { r with state := target } := if_pos h

theorem enterOrFault_fault {offs : List (Nat × Nat)} {target : StateCode}
    (h : ¬ WindowOK s.cfg.aw (sampledBase s) (sampledLen s) s.ports.winValid offs) :
    enterOrFault s offs target r = raiseWindowFault r := if_neg h

/-! ### The device as oracle -/

theorem statusAnswer_queued (b : Byte) (rest : List Byte) (d : List (Byte × Byte)) (n : Nat) :
    (Device.mk (b :: rest) d n).statusAnswer = b := rfl

theorem afterStatus_queued (b : Byte) (rest : List Byte) (d : List (Byte × Byte)) (n : Nat) :
    (Device.mk (b :: rest) d n).afterStatus = ⟨rest, d, n⟩ := rfl

theorem dataAnswer_queued (q : List Byte) (a : Byte × Byte) (rest : List (Byte × Byte)) (n : Nat) :
    (Device.mk q (a :: rest) n).dataAnswer = a := rfl

theorem afterData_queued (q : List Byte) (a : Byte × Byte) (rest : List (Byte × Byte)) (n : Nat) :
    (Device.mk q (a :: rest) n).afterData = ⟨q, rest, n⟩ := rfl

/-! ### The scaler -/

theorem extractLow12_toNat (w : Half) : (extractLow12 w).toNat = w.toNat % 4096 := by
  rw [extractLow12, BitVec.toNat_and]
  exact Nat.and_two_pow_sub_one_eq_mod w.toNat 12

theorem extractShift4_toNat (w : Half) : (extractShift4 w).toNat = w.toNat / 16 := by
  rw [extractShift4, BitVec.toNat_ushiftRight, Nat.shiftRight_eq_div_pow]

theorem extractMask4_toNat (w : Half) : (extractMask4 w).toNat = 16 * (w.toNat / 16) := by
  have h : extractMask4 w = (w >>> 4) <<< 4 := by
    apply BitVec.eq_of_getLsbD_eq
    intro i hi
    have hm : ∀ j : Fin 16, (0xFFF0#16).getLsbD j = decide (4 ≤ j.val) := by decide
    have hm := hm ⟨i, hi⟩
    simp only [extractMask4, BitVec.getLsbD_and, BitVec.getLsbD_shiftLeft, BitVec.getLsbD_ushiftRight]
    rw [show (65520 : BitVec 16) = 0xFFF0#16 from rfl, hm]
    by_cases h4 : i < 4
    · simp [h4]
    · rw [show 4 + (i - 4) = i by omega]
      simp [h4, hi]
      omega
  rw [h, BitVec.toNat_shiftLeft, BitVec.toNat_ushiftRight, Nat.shiftRight_eq_div_pow, Nat.shiftLeft_eq]
  have := w.isLt
  omega

/-- The extractor never delivers more than RMAX (00_scope.md R9 e). -/
theorem extract_le_rmax {mode : BitVec 2} (h : mode ≠ 3) (w : Half) : (extract mode w).toNat ≤ rmax mode := by
  have three : ∀ m : BitVec 2, m ≠ 3 → m = 0 ∨ m = 1 ∨ m = 2 := by decide
  have hw := w.isLt
  rcases three _ h with e | e | e <;> rw [e]
  · rw [show extract 0 w = extractLow12 w from rfl, extractLow12_toNat, show rmax 0 = 4095 from rfl]; omega
  · rw [show extract 1 w = extractShift4 w from rfl, extractShift4_toNat, show rmax 1 = 4095 from rfl]; omega
  · rw [show extract 2 w = extractMask4 w from rfl, extractMask4_toNat, show rmax 2 = 65520 from rfl]; omega

/-- Under a legal configuration no product overflows (42_scaler.md R133). -/
theorem scale_fits {c : Cfg} (h : CfgLegal c) (w : Half) : scale c.p (extract c.extractMode w).toNat ≤ 2 ^ c.accW - 1 :=
  le_trans (Nat.mul_le_mul_right _ (Nat.mul_le_mul_right _ (extract_le_rmax h.2.2.2.2.1 w))) h.2.2.2.2.2.1

theorem scale_lt_long {c : Cfg} (h : CfgLegal c) (w : Half) : scale c.p (extract c.extractMode w).toNat < 2 ^ 64 := by
  have hs := scale_fits h w
  rcases h.1.2.2.1 with e | e <;> rw [e] at hs <;> omega

end Sys2Proof.Machine
end

