-- ==== Sys2Proof/Laws/PerInstr.lean ====
section
/-! SUPPORT. Statements made per instruction. CodeFits: the word of a well-formed operation has a code of the width of its
place (30_encoding.md R70, R71, R79) and at most 32 operand bytes (43_formatter.md R158). -/

namespace Sys2Proof.Laws.CodeFits

/-- The code of the operation fits its place, and its operand bytes are at most those of the longest operation. -/
def Statement (i : Instr) : Prop :=
  WellFormed i → (encode i).code.toNat < 2 ^ codeWidth (encode i).sel ∧ (encode i).operands.length ≤ outBufBytes

theorem nop : Statement .nop := fun _ => by decide
theorem start : Statement .start := fun _ => by decide
theorem init : Statement .init := fun _ => by decide
theorem ack : Statement .ack := fun _ => by decide
theorem idle : Statement .idle := fun _ => by decide
theorem waitReadyPre : Statement .waitReadyPre := fun _ => by decide
theorem drain : Statement .drain := fun _ => by decide
theorem trigger : Statement .trigger := fun _ => by decide
theorem waitReadyPost : Statement .waitReadyPost := fun _ => by decide
theorem read : Statement .read := fun _ => by decide
theorem success : Statement .success := fun _ => by decide
theorem timeout : Statement .timeout := fun _ => by decide
theorem fault : Statement .fault := fun _ => by decide
theorem initState : Statement .initState := fun _ => by decide
theorem suspendExpire : Statement .suspendExpire := fun _ => by decide
theorem reset : Statement .reset := fun _ => by decide
theorem rdStatus : Statement .rdStatus := fun _ => by decide
theorem rdData : Statement .rdData := fun _ => by decide
theorem wrTrigger : Statement .wrTrigger := fun _ => by decide
theorem wrConfig (x y) : Statement (.wrConfig x y) := fun _ => ⟨Nat.le_of_ble_eq_true rfl, Nat.le_of_ble_eq_true rfl⟩
theorem isReadyClear (x) : Statement (.isReadyClear x) := fun _ => ⟨Nat.le_of_ble_eq_true rfl, Nat.le_of_ble_eq_true rfl⟩
theorem isReadySet (x) : Statement (.isReadySet x) := fun _ => ⟨Nat.le_of_ble_eq_true rfl, Nat.le_of_ble_eq_true rfl⟩
theorem isNotEmptyClear (x) : Statement (.isNotEmptyClear x) := fun _ => ⟨Nat.le_of_ble_eq_true rfl, Nat.le_of_ble_eq_true rfl⟩
theorem isNotEmptySet (x) : Statement (.isNotEmptySet x) := fun _ => ⟨Nat.le_of_ble_eq_true rfl, Nat.le_of_ble_eq_true rfl⟩
theorem extractLow12 (x) : Statement (.extractLow12 x) := fun _ => ⟨Nat.le_of_ble_eq_true rfl, Nat.le_of_ble_eq_true rfl⟩
theorem extractShift4 (x) : Statement (.extractShift4 x) := fun _ => ⟨Nat.le_of_ble_eq_true rfl, Nat.le_of_ble_eq_true rfl⟩
theorem extractMask4 (x) : Statement (.extractMask4 x) := fun _ => ⟨Nat.le_of_ble_eq_true rfl, Nat.le_of_ble_eq_true rfl⟩
theorem scale (x) : Statement (.scale x) := fun _ => ⟨Nat.le_of_ble_eq_true rfl, Nat.le_of_ble_eq_true rfl⟩
theorem divide (x) : Statement (.divide x) := fun _ => ⟨Nat.le_of_ble_eq_true rfl, Nat.le_of_ble_eq_true rfl⟩
theorem convert (x) : Statement (.convert x) := fun _ => ⟨Nat.le_of_ble_eq_true rfl, Nat.le_of_ble_eq_true rfl⟩
theorem rawOut (x) : Statement (.rawOut x) := fun _ => ⟨Nat.le_of_ble_eq_true rfl, Nat.le_of_ble_eq_true rfl⟩
theorem format (x) : Statement (.format x) := fun _ => ⟨Nat.le_of_ble_eq_true rfl, Nat.le_of_ble_eq_true rfl⟩
theorem decimal (x) : Statement (.decimal x) := fun _ => ⟨Nat.le_of_ble_eq_true rfl, Nat.le_of_ble_eq_true rfl⟩
theorem diagLine (x) : Statement (.diagLine x) := fun _ => by cases x <;> decide
theorem lenientZeroValue : Statement .lenientZeroValue := fun _ => by decide
theorem lenientEmpty : Statement .lenientEmpty := fun _ => by decide
theorem trunc (x) : Statement (.trunc x) := fun h => ⟨Nat.le_of_ble_eq_true rfl, of_decide_eq_true h⟩
theorem raiseTimeout (x) : Statement (.raiseTimeout x) := fun _ => by cases x <;> decide
theorem raiseWindowFault : Statement .raiseWindowFault := fun _ => by decide

end Sys2Proof.Laws.CodeFits
end

