-- ==== Sys2Proof/Laws/Step.lean ====
section
/-! SUPPORT. Everything a step can do, said once: the whole-machine proofs split on `StepCase` and do not unfold the step. -/

namespace Sys2Proof.Machine

/-- The step is the engine's: no reset, no command, not suspended, and STATE holds the code. -/
structure EngineStep (s : State) (code : StateCode) : Prop where
  rst : s.ports.rst = false
  cmd : s.ports.cmd = none
  waiting : s.regs.waiting = false
  state : s.regs.state = code

/-- The two polls of READY: the state, the stage its exhaustion reports, the state it goes on to (41_acquisition_fsm.md R104, R107). -/
inductive ReadyPoll : StateCode → Stage → StateCode → Prop where
  | pre : ReadyPoll stWaitReadyPre .waitingForDevice stDrain
  | post : ReadyPoll stWaitReadyPost .waitingForData stRead

/-- What a step does to the state, before the input ports move on: one constructor per case. -/
inductive StepCase (s : State) : State → Prop where
  /-- Nothing changes: a resting state, an unaccepted command, a suspended engine; never the engine in a working state. -/
  | stand : s.ports.rst = false → ¬ (EventAt s .engine ∧ Working s.regs.state) → StepCase s s
  /-- RESET. -/
  | reset : s.ports.rst = true → StepCase s (s.setRegs Regs.reset)
  /-- SUSPEND_EXPIRE. -/
  | expire : s.ports.rst = false → s.regs.waiting = true → s.ports.tick = true →
      StepCase s (s.setRegs { s.regs with waiting := false })
  /-- START accepted, window accepted. -/
  | start : s.ports.rst = false → s.ports.cmd = some 1 → s.regs.state = stIdle →
      WindowOK s.cfg.aw (sampledBase s) (sampledLen s) s.ports.winValid (acquireOffs s.cfg) →
      StepCase s (s.setRegs { beginOperation (sampledBase s) (sampledLen s) s.ports.cap s.regs with state := stWaitReadyPre })
  /-- START accepted, window rejected. -/
  | startFault : s.ports.rst = false → s.ports.cmd = some 1 → s.regs.state = stIdle →
      ¬ WindowOK s.cfg.aw (sampledBase s) (sampledLen s) s.ports.winValid (acquireOffs s.cfg) →
      StepCase s (s.setRegs (raiseWindowFault (beginOperation (sampledBase s) (sampledLen s) s.ports.cap s.regs)))
  /-- INIT accepted, window accepted. -/
  | init : s.ports.rst = false → s.ports.cmd = some 2 → s.regs.state = stIdle →
      WindowOK s.cfg.aw (sampledBase s) (sampledLen s) s.ports.winValid (initOffs s.cfg) →
      StepCase s (s.setRegs { beginOperation (sampledBase s) (sampledLen s) 0 s.regs with state := stInit })
  /-- INIT accepted, window rejected. -/
  | initFault : s.ports.rst = false → s.ports.cmd = some 2 → s.regs.state = stIdle →
      ¬ WindowOK s.cfg.aw (sampledBase s) (sampledLen s) s.ports.winValid (initOffs s.cfg) →
      StepCase s (s.setRegs (raiseWindowFault (beginOperation (sampledBase s) (sampledLen s) 0 s.regs)))
  /-- ACK accepted. -/
  | ack : s.ports.rst = false → s.ports.cmd = some 3 → Terminal s.regs.state → StepCase s (s.setRegs (returnToIdle s.regs))
  /-- A poll of READY passed. -/
  | ready {code st next} : ReadyPoll code st next → EngineStep s code → isReady s.cfg (statusValue s) = true →
      StepCase s ((readStatus s).setRegs { s.regs with status := statusValue s, retry := 0, state := next })
  /-- A poll of READY failed below BOUND. -/
  | notReady {code st next} : ReadyPoll code st next → EngineStep s code → isReady s.cfg (statusValue s) = false →
      s.regs.retry.toNat + 1 ≠ s.cfg.bound →
      StepCase s ((readStatus s).setRegs
        { s.regs with status := statusValue s, retry := s.regs.retry + 1, waiting := true })
  /-- A poll of READY failed at BOUND. -/
  | readyTimeout {code st next} : ReadyPoll code st next → EngineStep s code → isReady s.cfg (statusValue s) = false →
      s.regs.retry.toNat + 1 = s.cfg.bound →
      StepCase s ((readStatus s).setRegs
        (raiseTimeout s.cfg st { s.regs with status := statusValue s, retry := s.regs.retry + 1 }))
  /-- A poll of NOT_EMPTY passed. -/
  | drained : EngineStep s stDrain → isNotEmpty s.cfg (statusValue s) = false →
      StepCase s ((readStatus s).setRegs { s.regs with status := statusValue s, retry := 0, state := stTrigger })
  /-- A poll of NOT_EMPTY failed below BOUND. -/
  | notDrained : EngineStep s stDrain → isNotEmpty s.cfg (statusValue s) = true → dataReadStuck s = false →
      s.regs.retry.toNat + 1 ≠ s.cfg.bound →
      StepCase s ((readData (readStatus s)).setRegs
        { s.regs with status := statusValue s, retry := s.regs.retry + 1, waiting := true })
  /-- A poll of NOT_EMPTY failed at BOUND. -/
  | drainTimeout : EngineStep s stDrain → isNotEmpty s.cfg (statusValue s) = true → dataReadStuck s = false →
      s.regs.retry.toNat + 1 = s.cfg.bound →
      StepCase s ((readData (readStatus s)).setRegs
        (raiseTimeout s.cfg .discardingData { s.regs with status := statusValue s, retry := s.regs.retry + 1 }))
  /-- TRIGGER. -/
  | trigger : EngineStep s stTrigger →
      StepCase s ((writeTrigger s).setRegs { s.regs with retry := 0, state := stWaitReadyPost })
  /-- READ. -/
  | read : EngineStep s stRead → dataReadStuck s = false →
      StepCase s ((readData s).setRegs (deliver s.cfg (dataValue s) s.regs))
  /-- INIT_STATE, an entry of CFG_TABLE written. -/
  | attach {e} : EngineStep s stInit → s.regs.cfgIdx.toNat ≠ s.cfg.nCfg →
      s.cfg.cfgTable[s.regs.cfgIdx.toNat]? = some e →
      StepCase s ((writeConfig e.offset e.byte s).setRegs { s.regs with cfgIdx := s.regs.cfgIdx + 1 })
  /-- INIT_STATE, the table exhausted. -/
  | attached : EngineStep s stInit → s.regs.cfgIdx.toNat = s.cfg.nCfg →
      StepCase s (s.setRegs { s.regs with outcome := .success, state := stSuccess })

variable {s t u : State}

/-- A requested command takes the step from the engine. -/
theorem stand_of_cmd {c : BitVec 2} (hr : s.ports.rst = false) (hc : s.ports.cmd = some c) : StepCase s s :=
  .stand hr fun h => by rw [h.1.2.1] at hc; cases hc

/-- A resting or terminal state is no working state. -/
theorem stand_of_resting (hr : s.ports.rst = false) (hn : ¬ Working s.regs.state) : StepCase s s :=
  .stand hr fun h => hn h.2

theorem startCase (hr : s.ports.rst = false) (hc : s.ports.cmd = some 1) (h : execStart s = .next u) : StepCase s u := by
  obtain ⟨_, rfl⟩ := hostCommand_eq_next.mp h
  split_ifs with hs
  · rw [beq_iff_eq] at hs
    by_cases hw : WindowOK s.cfg.aw (sampledBase s) (sampledLen s) s.ports.winValid (acquireOffs s.cfg)
    · rw [enterOrFault_ok hw]; exact .start hr hc hs hw
    · rw [enterOrFault_fault hw]; exact .startFault hr hc hs hw
  · exact stand_of_cmd hr hc

theorem initCase (hr : s.ports.rst = false) (hc : s.ports.cmd = some 2) (h : execInit s = .next u) : StepCase s u := by
  obtain ⟨_, rfl⟩ := hostCommand_eq_next.mp h
  split_ifs with hs
  · rw [beq_iff_eq] at hs
    by_cases hw : WindowOK s.cfg.aw (sampledBase s) (sampledLen s) s.ports.winValid (initOffs s.cfg)
    · rw [enterOrFault_ok hw]; exact .init hr hc hs hw
    · rw [enterOrFault_fault hw]; exact .initFault hr hc hs hw
  · exact stand_of_cmd hr hc

theorem ackCase (hr : s.ports.rst = false) (hc : s.ports.cmd = some 3) (h : execAck s = .next u) : StepCase s u := by
  obtain ⟨_, rfl⟩ := hostCommand_eq_next.mp h
  split_ifs with hs
  · exact .ack hr hc ((done_iff _).mp hs)
  · exact stand_of_cmd hr hc

theorem readyCase {code : StateCode} {st : Stage} {next : StateCode} (hp : ReadyPoll code st next)
    (he : EngineStep s code) : StepCase s (readyPoll st next s) := by
  cases hb : isReady s.cfg (statusValue s) with
  | true => rw [readyPoll_passed hb]; exact .ready hp he hb
  | false =>
    rw [readyPoll_failed hb]
    rcases pollFailed_cases s.cfg st { s.regs with status := statusValue s } with ⟨h, e⟩ | ⟨h, e⟩ <;> rw [e]
    · exact .readyTimeout hp he hb h
    · exact .notReady hp he hb h

theorem drainCase (he : EngineStep s stDrain) (hd : ¬ (dataReadStuck s && isNotEmpty s.cfg (statusValue s)) = true) :
    StepCase s (drainPoll s) := by
  cases hb : isNotEmpty s.cfg (statusValue s) with
  | false => rw [drainPoll_passed hb]; exact .drained he hb
  | true =>
    rw [hb, Bool.and_true, Bool.not_eq_true] at hd
    rw [drainPoll_failed hb]
    rcases pollFailed_cases s.cfg .discardingData { s.regs with status := statusValue s } with ⟨h, e⟩ | ⟨h, e⟩ <;> rw [e]
    · exact .drainTimeout he hb hd h
    · exact .notDrained he hb hd h

theorem attachCase (he : EngineStep s stInit) (h : execInitState s = .next u) : StepCase s u := by
  obtain ⟨_, ⟨_, _, h⟩ | ⟨hn, _⟩⟩ := engineOp_eq_next.mp h
  · split_ifs at h with hi
    · cases h; exact .attached he hi
    · split at h
      · rename_i e hx; cases h; exact .attach he hi hx
      · cases h
  · exact absurd ⟨he.state, he.waiting⟩ hn

theorem engineCase {code : StateCode} {k : StepOutcome} (he : EngineStep s code) (h : engineOp code s k = .next u) :
    k = .next u := by
  obtain ⟨_, ⟨_, _, h⟩ | ⟨hn, _⟩⟩ := engineOp_eq_next.mp h
  · exact h
  · exact absurd ⟨he.state, he.waiting⟩ hn

/-- Everything a step that answers a next state can have done. -/
theorem step_cases (h : step s = .next t) : CfgLegal s.cfg ∧ ∃ u, t = advance u ∧ StepCase s u := by
  obtain ⟨hl, u, rfl, ⟨hf, rfl⟩ | ⟨i, hi, hu⟩⟩ := step_eq_next h
  · refine ⟨hl, u, rfl, .stand ?_ ?_⟩
    · cases hr : u.ports.rst with
      | false => rfl
      | true => unfold fetch at hf; rw [hr] at hf; cases hf
    · rintro ⟨⟨hr, hc, hw⟩, _⟩
      unfold fetch at hf
      rw [hr, hc, hw] at hf
      cases hd : decode ⟨.state, u.regs.state, []⟩ <;> simp [hd, Except.map] at hf
  · refine ⟨hl, u, rfl, ?_⟩
    obtain ⟨hr, rfl⟩ | ⟨hr, hw, ht, rfl⟩ | ⟨hr, -, c, hc, ⟨rfl, rfl⟩ | ⟨rfl, rfl⟩ | ⟨rfl, rfl⟩ | ⟨rfl, rfl⟩⟩ |
      ⟨hr, hc, hw, hd⟩ := fetch_cases hi
    · obtain ⟨_, e⟩ := guardLegal_eq_next.mp hu
      cases e; exact .reset hr
    · obtain ⟨_, e⟩ := guardLegal_eq_next.mp hu
      cases e; exact .expire hr hw ht
    · obtain ⟨_, e⟩ := guardLegal_eq_next.mp hu
      cases e; exact stand_of_cmd hr hc
    · exact startCase hr hc hu
    · exact initCase hr hc hu
    · exact ackCase hr hc hu
    · rcases decode_state_ok hd with ⟨hs, rfl⟩ | ⟨hs, rfl⟩ | ⟨hs, rfl⟩ | ⟨hs, rfl⟩ | ⟨hs, rfl⟩ | ⟨hs, rfl⟩ | ⟨hs, rfl⟩ |
        ⟨hs, rfl⟩ | ⟨hs, rfl⟩ | ⟨hs, rfl⟩
      · have e := engineCase ⟨hr, hc, hw, hs⟩ hu; cases e; exact stand_of_resting hr (by rw [hs]; decide)
      · have e := engineCase ⟨hr, hc, hw, hs⟩ hu; cases e; exact readyCase .pre ⟨hr, hc, hw, hs⟩
      · have e := engineCase ⟨hr, hc, hw, hs⟩ hu
        split_ifs at e with hx
        cases e; exact drainCase ⟨hr, hc, hw, hs⟩ hx
      · have e := engineCase ⟨hr, hc, hw, hs⟩ hu; cases e; exact .trigger ⟨hr, hc, hw, hs⟩
      · have e := engineCase ⟨hr, hc, hw, hs⟩ hu; cases e; exact readyCase .post ⟨hr, hc, hw, hs⟩
      · have e := engineCase ⟨hr, hc, hw, hs⟩ hu
        split_ifs at e with hx
        cases e; exact .read ⟨hr, hc, hw, hs⟩ (Bool.not_eq_true _ ▸ hx)
      · have e := engineCase ⟨hr, hc, hw, hs⟩ hu; cases e; exact stand_of_resting hr (by rw [hs]; decide)
      · have e := engineCase ⟨hr, hc, hw, hs⟩ hu; cases e; exact stand_of_resting hr (by rw [hs]; decide)
      · have e := engineCase ⟨hr, hc, hw, hs⟩ hu; cases e; exact stand_of_resting hr (by rw [hs]; decide)
      · exact attachCase ⟨hr, hc, hw, hs⟩ hu

/-- A run of k + 1 steps of any machine is a step and a run of k. -/
theorem machine_run_succ {M : Host.Core} {k : Nat} {x y : M.State} :
    M.run (k + 1) x = .next y ↔ ∃ u, M.step x = .next u ∧ M.run k u = .next y := by
  rw [Host.Core.run]
  cases M.step x with
  | next u => exact ⟨fun h => ⟨u, rfl, h⟩, fun ⟨_, h1, h2⟩ => by cases h1; exact h2⟩
  | fault f => exact ⟨fun h => (by cases h), fun ⟨_, h, _⟩ => (by cases h)⟩
  | refused f => exact ⟨fun h => (by cases h), fun ⟨_, h, _⟩ => (by cases h)⟩

/-- The same of this machine. -/
theorem run_succ {k : Nat} : Sys2Proof.core.run (k + 1) s = .next t ↔
    ∃ u : State, step s = .next u ∧ Sys2Proof.core.run k u = .next t :=
  machine_run_succ (M := Sys2Proof.core)

/-- Registers READ writes, as one record (41_acquisition_fsm.md R108). -/
theorem deliver_state (c : Cfg) (w : Half) (r : Regs) : (deliver c w r).state = stSuccess := rfl

end Sys2Proof.Machine
end

