-- ==== Sys2Proof/Tests/Slice0.lean ====
section
/-! SUPPORT. Tests, one step each (a few witnesses run up to five). Expected values are those of 95_test_vectors.md (the vector is named)
or words written out from the tables of 30_encoding.md. Then, for every statement with hypotheses, a state or an operand that meets them. -/

namespace Sys2Proof.Machine.Tests

/-! ### Helpers -/

/-- The next state, if there is one. -/
def nextOf : StepOutcome → Option State
  | .next s => some s
  | _ => none

/-- The fault, if there is one. -/
def faultOf : StepOutcome → Option Fault
  | .fault f => some f
  | _ => none

/-- The refusal, if there is one. -/
def refusalOf : StepOutcome → Option Refusal
  | .refused r => some r
  | _ => none

/-- The decoded operation, if there is one. -/
def okOf (d : Except DecodeError Instr) : Option Instr :=
  match d with
  | .ok i => some i
  | .error _ => none

/-- The name of the rejection, if there is one. -/
def errOf (d : Except DecodeError Instr) : Option DecodeError :=
  match d with
  | .ok _ => none
  | .error e => some e

/-- The registers after START in the window of the vectors, with STATE and RETRY given. -/
def regsAt (code : StateCode) (retry : Byte) : Regs :=
  { Regs.reset with state := code, retry := retry, lBase := 0xD000, lLen := 8, lCap := 64 }

/-- A state with the registers of `regsAt` and the device's answers. -/
def at_ (code : StateCode) (retry : Byte) (status : List Byte) (data : List (Byte × Byte)) : State :=
  { State.reset with regs := regsAt code retry, dev := ⟨status, data, 0⟩ }

/-- The same, suspended. -/
def suspended (code : StateCode) (retry : Byte) : State :=
  { State.reset with regs := { regsAt code retry with waiting := true } }

/-- Reset state with a window at the ports. -/
def windowed (base len : Nat) (valid : Bool) : State :=
  { State.reset with ports := { Ports.unclaimed with winBase := base, winLen := len, winValid := valid, cap := 64 } }

/-- The state with its configuration changed. -/
def withCfg (s : State) (c : Cfg) : State := { s with cfg := c }

/-- Sequencing registers: STATE, RETRY, WAITING, STATUS. -/
def seq (s : State) : StateCode × Byte × Bool × Byte := (s.regs.state, s.regs.retry, s.regs.waiting, s.regs.status)

/-- Result registers: OUTCOME, STAGE, VALUE, OUT_LEN, the delivered bytes. -/
structure Results where
  outcome : ResultCode
  stage : Option Stage
  value : Long
  outLen : BitVec 6
  bytes : List Byte
  deriving DecidableEq, Repr

/-- The result registers of a state. -/
def results (s : State) : Results :=
  ⟨s.regs.outcome, s.regs.stage, s.regs.value, s.regs.outLen, s.regs.outBuf.take s.regs.outLen.toNat⟩

/-- What an operation executed on its own returned. -/
def retOf (o : StepOutcome) : Option Result := (nextOf o).map (·.ret)

/-! ### Configuration (00_scope.md R8, R9) -/

theorem test_cfgRef_legal : CfgLegal cfgRef := by decide
/-- B10. -/
theorem test_cfg_overlap_illegal : ¬ CfgLegal { cfgRef with offData := 0x01 } := by decide
theorem test_cfg_same_masks_illegal : ¬ CfgLegal { cfgRef with neMask := 0x80 } := by decide
theorem test_cfg_zero_trigger_illegal : ¬ CfgLegal { cfgRef with trigValue := 0 } := by decide
theorem test_cfg_bound_zero_illegal : ¬ CfgLegal { cfgRef with bound := 0 } := by decide
theorem test_cfg_reserved_extract_illegal : ¬ CfgLegal { cfgRef with extractMode := 3 } := by decide
/-- Section 3.2, legality corners: P = 14 is the largest with ACC_W = 64 under SHIFT4. -/
theorem test_cfg_largest_p : CfgLegal { cfgRef with p := 14 } ∧ ¬ CfgLegal { cfgRef with p := 15 } := by decide
/-- P = 5 is the largest with ACC_W = 32. -/
theorem test_cfg_largest_p_narrow : CfgLegal { cfgRef with p := 5, accW := 32 } ∧
    ¬ CfgLegal { cfgRef with p := 6, accW := 32 } := by decide
/-- M6: under MASK4 the largest is 13. -/
theorem test_cfg_largest_p_mask4 : CfgLegal { cfgRef with p := 13, extractMode := 2 } ∧
    ¬ CfgLegal { cfgRef with p := 14, extractMode := 2 } := by decide
theorem test_illegal_cfg_refused :
    refusalOf (exec .read (withCfg (at_ stRead 0 [] []) { cfgRef with offData := 0x01 })) = some .illegalConfig := by decide

/-! ### Well-formedness and decoding -/

theorem test_trunc_too_long_ill_formed : ¬ WellFormed (.trunc (List.replicate 33 0)) := by decide
theorem test_trunc_too_long_rejected :
    errOf (decode ⟨.trunc, 0, List.replicate 33 0⟩) = some .operandLength := by decide

/-- R72. -/
theorem test_decode_cmd :
    [0b00, 0b01, 0b10, 0b11].map (fun c => okOf (decode ⟨.cmd, c, []⟩)) =
      [some .nop, some .start, some .init, some .ack] := by decide
/-- R71, R73. -/
theorem test_decode_state :
    [0b0000, 0b0001, 0b0010, 0b0011, 0b0100, 0b0101, 0b0110, 0b0111, 0b1000, 0b1001].map
      (fun c => okOf (decode ⟨.state, c, []⟩)) =
      [some .idle, some .waitReadyPre, some .drain, some .trigger, some .waitReadyPost, some .read, some .success,
        some .timeout, some .fault, some .initState] := by decide
/-- R73, the pseudo-format EVENT. -/
theorem test_decode_event : okOf (decode ⟨.tick, 1, []⟩) = some .suspendExpire ∧
    okOf (decode ⟨.rst, 1, []⟩) = some .reset ∧ errOf (decode ⟨.rst, 0, []⟩) = some .eventAbsent := by decide
/-- R74; the offset 0x05 and the byte 0x00 of vector B5. -/
theorem test_decode_bus : okOf (decode ⟨.bus, 0b0000, []⟩) = some .rdStatus ∧
    okOf (decode ⟨.bus, 0b0101, []⟩) = some .rdData ∧ okOf (decode ⟨.bus, 0b1010, []⟩) = some .wrTrigger ∧
    okOf (decode ⟨.bus, 0b1011, [0x05, 0, 0, 0, 0, 0, 0, 0, 0x00]⟩) = some (.wrConfig 0x05 0x00) := by decide
/-- R79, by READY_POL and NE_POL. -/
theorem test_decode_predicates : okOf (decode ⟨.readyPol, 0, [0xC0]⟩) = some (.isReadyClear 0xC0) ∧
    okOf (decode ⟨.readyPol, 1, [0xC0]⟩) = some (.isReadySet 0xC0) ∧
    okOf (decode ⟨.nePol, 0, [0xC0]⟩) = some (.isNotEmptyClear 0xC0) ∧
    okOf (decode ⟨.nePol, 1, [0xC0]⟩) = some (.isNotEmptySet 0xC0) := by decide
/-- R77, R79, by EXTRACT_MODE; the word 0xABC5, low byte first. -/
theorem test_decode_extract : okOf (decode ⟨.extractMode, 0b00, [0xC5, 0xAB]⟩) = some (.extractLow12 0xABC5) ∧
    okOf (decode ⟨.extractMode, 0b01, [0xC5, 0xAB]⟩) = some (.extractShift4 0xABC5) ∧
    okOf (decode ⟨.extractMode, 0b10, [0xC5, 0xAB]⟩) = some (.extractMask4 0xABC5) ∧
    errOf (decode ⟨.extractMode, 0b11, [0xC5, 0xAB]⟩) = some .reservedExtractMode := by decide
/-- R79: the functions no code selects, and FORMAT and RAWOUT by OUT_MODE. -/
theorem test_decode_scaler : okOf (decode ⟨.scale, 0, [0xFF, 0x0F]⟩) = some (.scale 4095) ∧
    okOf (decode ⟨.divide, 0, [0x04, 0x03, 0x02, 0x01, 0, 0, 0, 0]⟩) = some (.divide 0x01020304) ∧
    okOf (decode ⟨.convert, 0, [0xFF, 0x0F]⟩) = some (.convert 4095) := by decide
theorem test_decode_formatter : okOf (decode ⟨.outMode, 0, [0xFF, 0x0F]⟩) = some (.rawOut 4095) ∧
    okOf (decode ⟨.outMode, 1, [0xD7, 0x30, 0, 0, 0, 0, 0, 0]⟩) = some (.format 12503) ∧
    okOf (decode ⟨.decimal, 0, [0xD7, 0x30, 0, 0, 0, 0, 0, 0]⟩) = some (.decimal 12503) ∧
    okOf (decode ⟨.trunc, 0, [0x31, 0x2E]⟩) = some (.trunc [0x31, 0x2E]) := by decide
/-- R79, DIAG by STRICT and OUT_MODE: the line in both output modes under STRICT = 1. -/
theorem test_decode_diag : okOf (decode ⟨.diag, 0b00, []⟩) = some .lenientZeroValue ∧
    okOf (decode ⟨.diag, 0b01, []⟩) = some .lenientEmpty ∧
    okOf (decode ⟨.diag, 0b10, [0x02]⟩) = some (.diagLine .discardingData) ∧
    okOf (decode ⟨.diag, 0b11, [0x02]⟩) = some (.diagLine .discardingData) := by decide
/-- R71, R79, the format RES: OUTCOME in bits 1:0, here STAGE above it (log 13). -/
theorem test_decode_res : okOf (decode ⟨.res, 0b0110, []⟩) = some (.raiseTimeout .waitingForDevice) ∧
    okOf (decode ⟨.res, 0b1010, []⟩) = some (.raiseTimeout .discardingData) ∧
    okOf (decode ⟨.res, 0b1110, []⟩) = some (.raiseTimeout .waitingForData) ∧
    okOf (decode ⟨.res, 0b0011, []⟩) = some .raiseWindowFault ∧
    errOf (decode ⟨.res, 0b0001, []⟩) = some .notARaise := by decide
theorem test_decode_too_wide : errOf (decode ⟨.cmd, 0b100, []⟩) = some .codeTooWide := by decide
theorem test_decodeTableWord : decodeTableWord 8 0b0101 = some .read ∧ decodeTableWord 8 0b1010 = some .wrTrigger ∧
    decodeTableWord 8 0b1011 = some (.wrConfig 0 0) ∧ decodeTableWord 8 0b1100 = none := by decide
/-- From reset, the placed READ is the first operation of the next step. -/
theorem test_withFetchWord : ((nextOf (step (State.reset.withFetchWord 8 0b0101))).map (·.regs.state)) = some stSuccess ∧
    ((nextOf (step (State.reset.withFetchWord 8 0b1010))).map (·.regs.state)) = some stWaitReadyPost := by decide

/-! ### Host commands -/

/-- A1. -/
theorem test_start : (nextOf (exec .start (windowed 0xD000 8 true))).map
      (fun t => (t.regs.state, t.regs.lBase, t.regs.lLen, t.regs.lCap, busy t.regs, done t.regs)) =
    some (0x1, 0xD000, 8, 64, true, false) := by decide
/-- E8 to E11, E14: each kind of rejected window faults, with no access. -/
theorem test_start_faults : [windowed 0 8 true, windowed 0xD000 0 true, windowed 0xD000 8 false, windowed 0xD000 3 true,
      windowed 0xFFFFFFFC 8 true].map (fun s => (nextOf (exec .start s)).map
        (fun t => (t.regs.state, t.regs.outcome, t.regs.stage, t.trace))) =
    List.replicate 5 (some (0x8, .fault, none, [])) := by decide
/-- A25. -/
theorem test_init : (nextOf (exec .init (windowed 0xD000 8 true))).map
      (fun t => (t.regs.state, t.regs.cfgIdx, t.regs.lCap)) = some (0x9, 0, 0) := by decide
/-- E13. -/
theorem test_init_fault : (nextOf (exec .init (windowed 0xD000 4 true))).map
      (fun t => (t.regs.state, t.regs.outcome)) = some (0x8, .fault) := by decide
/-- A21, A22. -/
theorem test_ack : (nextOf (exec .ack { at_ stSuccess 0 [] [] with
      regs := { regsAt stSuccess 0 with outcome := .success, value := 12503, outLen := 9 } })).map
      (fun t => (t.regs.state, t.regs.outcome, t.regs.value, t.regs.outLen, busy t.regs, done t.regs)) =
    some (0x0, .success, 12503, 9, false, false) := by decide
theorem test_ack_ignored_in_idle : nextOf (exec .ack State.reset) = some State.reset := by decide
/-- A20, A24: START and INIT outside IDLE, ACK while suspended. -/
theorem test_commands_ignored : nextOf (exec .start (at_ stSuccess 0 [] [])) = some (at_ stSuccess 0 [] []) ∧
    nextOf (exec .init (suspended stWaitReadyPost 1)) = some (suspended stWaitReadyPost 1) ∧
    nextOf (exec .ack (suspended stWaitReadyPost 1)) = some (suspended stWaitReadyPost 1) := by decide
theorem test_nop : nextOf (exec .nop (suspended stDrain 3)) = some (suspended stDrain 3) := by decide

/-! ### State operations -/

/-- A2, A3. -/
theorem test_waitReadyPre : (nextOf (exec .waitReadyPre (at_ stWaitReadyPre 0 [0x80] []))).map seq = some (0x2, 0, false, 0x80) ∧
    (nextOf (exec .waitReadyPre (at_ stWaitReadyPre 0 [0x00] []))).map seq = some (0x1, 1, true, 0x00) := by decide
/-- A6, A7, A8: the 24th and the 25th failed check, and success on the 25th poll. -/
theorem test_waitReadyPre_bound :
    (nextOf (exec .waitReadyPre (at_ stWaitReadyPre 23 [0x00] []))).map seq = some (0x1, 24, true, 0x00) ∧
    (nextOf (exec .waitReadyPre (at_ stWaitReadyPre 24 [0x00] []))).map (fun t => (seq t, t.regs.outLen)) =
      some ((0x7, 25, false, 0x00), 27) ∧
    (nextOf (exec .waitReadyPre (at_ stWaitReadyPre 24 [0x80] []))).map seq = some (0x2, 0, false, 0x80) := by decide
/-- A9, A10, A11. -/
theorem test_drain : (nextOf (exec .drain (at_ stDrain 0 [0x80] []))).map (fun t => (seq t, t.trace.length)) =
      some ((0x3, 0, false, 0x80), 1) ∧
    (nextOf (exec .drain (at_ stDrain 0 [0x40] [(0x30, 0x12)]))).map (fun t => (seq t, t.trace, t.regs.sample)) =
      some ((0x2, 1, true, 0x40), [⟨.rdStatus, 0xD002, 0x40⟩, ⟨.rdData, 0xD000, 0x1230⟩], 0) := by decide
/-- A12. -/
theorem test_drain_bound : (nextOf (exec .drain (at_ stDrain 24 [0xC0] [(0xA0, 0xAA)]))).map
      (fun t => (seq t, t.regs.stage, t.regs.outLen, t.trace.length)) =
    some ((0x7, 25, false, 0xC0), some .discardingData, 24, 2) := by decide
/-- A13. -/
theorem test_trigger : (nextOf (exec .trigger (at_ stTrigger 0 [] []))).map (fun t => (seq t, t.trace)) =
    some ((0x4, 0, false, 0x00), [⟨.wrTrigger, 0xD003, 0x01⟩]) := by decide
/-- A15, A16. -/
theorem test_waitReadyPost : (nextOf (exec .waitReadyPost (at_ stWaitReadyPost 0 [0x80] []))).map seq =
      some (0x5, 0, false, 0x80) ∧
    (nextOf (exec .waitReadyPost (at_ stWaitReadyPost 24 [0x40] []))).map (fun t => (seq t, t.regs.stage, t.regs.outLen)) =
      some ((0x7, 25, false, 0x40), some .waitingForData, 25) := by decide
/-- A17. -/
theorem test_read : (nextOf (exec .read (at_ stRead 0 [] [(0xF0, 0xFF)]))).map
      (fun t => (t.regs.sample, t.regs.raw, t.regs.scaled, t.regs.volt, results t, t.regs.state)) =
    some (0xFFF0, 4095, 409500000, 12503,
      ⟨.success, none, 12503, 9, [0x31, 0x2E, 0x32, 0x35, 0x30, 0x33, 0x20, 0x56, 0x0A]⟩, 0x6) := by decide
/-- A18; the conversion is still computed. -/
theorem test_read_raw : (nextOf (exec .read (withCfg (at_ stRead 0 [] [(0xF0, 0xFF)]) { cfgRef with outMode := .raw }))).map
      (fun t => (t.regs.volt, results t)) = some (12503, ⟨.success, none, 4095, 2, [0xFF, 0x0F]⟩) := by decide
/-- A26, A27. -/
theorem test_initState : (nextOf (exec .initState (at_ stInit 0 [] []))).map (fun t => (t.regs.cfgIdx, t.regs.state, t.trace)) =
      some (1, 0x9, [⟨.wrConfig, 0xD004, 0x00⟩]) ∧
    (nextOf (exec .initState { at_ stInit 0 [] [] with regs := { regsAt stInit 0 with cfgIdx := 3 } })).map
      (fun t => (results t, t.regs.state, t.trace)) = some (⟨.success, none, 0, 0, []⟩, 0x6, []) := by decide
theorem test_initState_out_of_range :
    faultOf (exec .initState { at_ stInit 0 [] [] with regs := { regsAt stInit 0 with cfgIdx := 4 } }) =
      some .configIndexOutOfRange := by decide
/-- A19, and the other resting states. -/
theorem test_resting : [(stIdle, Instr.idle), (stSuccess, .success), (stTimeout, .timeout), (stFault, .fault)].all
      (fun p => nextOf (exec p.2 (at_ p.1 0 [] [])) == some (at_ p.1 0 [] [])) = true := by decide
/-- A4: a suspended engine has no step, and no command or TICK here: nothing changes. -/
theorem test_suspended_stands : nextOf (exec .waitReadyPre (suspended stWaitReadyPre 1)) = some (suspended stWaitReadyPre 1) := by
  decide
/-- A5, through the step: TICK is present at the ports of `suspended`. -/
theorem test_suspendExpire : (nextOf (step (suspended stWaitReadyPre 1))).map seq = some (0x1, 1, false, 0x00) := by decide
/-- A29, Z3: reset before a command in the same step. -/
theorem test_reset : (nextOf (step { suspended stWaitReadyPost 7 with
      ports := { Ports.unclaimed with rst := true, cmd := some 1, winBase := 0xD000, winLen := 8, winValid := true } })).map
      (·.regs) = some Regs.reset := by decide
/-- U2: a reserved code is stuck. -/
theorem test_reserved_state_stuck : faultOf (step (at_ 0xA 0 [] [])) = some .reservedState := by decide

/-! ### Register Interface -/

/-- B1. -/
theorem test_rdStatus : (nextOf (exec .rdStatus (at_ stIdle 0 [0x80] []))).map (fun t => (t.ret, t.trace, t.regs)) =
    some (.status 0x80, [⟨.rdStatus, 0xD002, 0x80⟩], regsAt stIdle 0) := by decide
/-- B3. -/
theorem test_rdData : (nextOf (exec .rdData (at_ stIdle 0 [] [(0xF0, 0xFF)]))).map (fun t => (t.ret, t.trace)) =
    some (.data 0xFFF0, [⟨.rdData, 0xD000, 0xFFF0⟩]) := by decide
/-- B6, B7. -/
theorem test_rdData_misaligned :
    faultOf (exec .rdData (withCfg (at_ stIdle 0 [] [(0xF0, 0xFF)]) { cfgRef with offData := 0x05 })) = some .dataReadStuck ∧
    (nextOf (exec .rdData (withCfg (at_ stIdle 0 [] [(0xF0, 0xFF)])
      { cfgRef with offData := 0x05, busAllowsMisaligned := true }))).map (·.trace) =
      some [⟨.rdData, 0xD005, 0xFFF0⟩] := by decide
/-- B4. -/
theorem test_wrTrigger : (nextOf (exec .wrTrigger (at_ stIdle 0 [] []))).map (·.trace) =
    some [⟨.wrTrigger, 0xD003, 0x01⟩] := by decide
/-- B5. -/
theorem test_wrConfig : (nextOf (exec (.wrConfig 0x05 0x00) (at_ stIdle 0 [] []))).map (·.trace) =
    some [⟨.wrConfig, 0xD005, 0x00⟩] := by decide

/-! ### Functions -/

/-- Q1 to Q6 under polarity 1. -/
theorem test_predicates_set :
    [0x00, 0x80, 0x40, 0xC0, 0x3F, 0xFF].map (fun b => (retOf (exec (.isReadySet b) State.reset), retOf (exec (.isNotEmptySet b) State.reset))) =
      [(false, false), (true, false), (false, true), (true, true), (false, false), (true, true)].map
        (fun p => (some (.truth p.1), some (.truth p.2))) := by decide
/-- Q7 to Q10, the masks of CFG_REF with polarity 0. -/
theorem test_predicates_clear :
    [0x00, 0x80, 0x40, 0xC0].map (fun b => (retOf (exec (.isReadyClear b) State.reset), retOf (exec (.isNotEmptyClear b) State.reset))) =
      [(true, true), (false, true), (true, false), (false, false)].map
        (fun p => (some (.truth p.1), some (.truth p.2))) := by decide
/-- Q11. -/
theorem test_predicates_q11 :
    isReady { cfgRef with readyMask := 0x01, neMask := 0x02, nePol := false } 0x01 = true ∧
    isNotEmpty { cfgRef with readyMask := 0x01, neMask := 0x02, nePol := false } 0x01 = true := by decide
/-- X1, X3, X6, X8, X9. -/
theorem test_extract :
    [0x0000, 0xFFF7, 0x8000, 0x000F, 0xABC5].map (fun w => (retOf (exec (.extractLow12 w) State.reset),
      retOf (exec (.extractShift4 w) State.reset), retOf (exec (.extractMask4 w) State.reset))) =
    [(0, 0, 0), (4087, 4095, 65520), (0, 2048, 32768), (15, 0, 0), (3013, 2748, 43968)].map
      (fun p => (some (.number p.1), some (.number p.2.1), some (.number p.2.2))) := by decide
/-- V2, V14, M4. -/
theorem test_scale : [1, 4095, 65520].map (fun r => retOf (exec (.scale r) State.reset)) =
    [some (.number 100000), some (.number 409500000), some (.number 6552000000)] := by decide
/-- V14, V21: truncation. -/
theorem test_divide : [409500000, 32750].map (fun sc => retOf (exec (.divide sc) State.reset)) =
    [some (.number 12503), some (.number 0)] := by decide
/-- V8, V11, V12. -/
theorem test_convert : [2047, 3275, 3276].map (fun r => retOf (exec (.convert r) State.reset)) =
    [some (.number 6250), some (.number 9999), some (.number 10002)] := by decide
/-- F11, F13. -/
theorem test_rawOut : [4095, 65520].map (fun r => retOf (exec (.rawOut r) State.reset)) =
    [some (.bytes [0xFF, 0x0F]), some (.bytes [0xF0, 0xFF])] := by decide
/-- F3, F6. -/
theorem test_format : [5, 100000].map (fun v => retOf (exec (.format v) State.reset)) =
    [some (.bytes [0x30, 0x2E, 0x30, 0x30, 0x30, 0x35, 0x20, 0x56, 0x0A]),
     some (.bytes [0x31, 0x30, 0x2E, 0x30, 0x30, 0x30, 0x30, 0x20, 0x56, 0x0A])] := by decide
/-- F8. -/
theorem test_format_p0 : retOf (exec (.format 12) (withCfg State.reset { cfgRef with p := 0 })) =
    some (.bytes [0x31, 0x32, 0x20, 0x56, 0x0A]) := by decide
/-- F1, F2. -/
theorem test_decimal : [0, 12503].map (fun v => retOf (exec (.decimal v) State.reset)) =
    [some (.bytes [0x30]), some (.bytes [0x31, 0x32, 0x35, 0x30, 0x33])] := by decide
/-- F21 to F23, the lengths; the bytes stand in Obligations.TimeoutReportsComplete. -/
theorem test_diagLine : [Stage.waitingForDevice, .discardingData, .waitingForData].map (fun st => (diagLine st).length) =
    [27, 24, 25] := by decide
/-- F24, F25. -/
theorem test_lenient : retOf (exec .lenientEmpty State.reset) = some (.bytes []) ∧
    retOf (exec .lenientZeroValue State.reset) = some (.bytes [0x00, 0x00]) := by decide
/-- F16, F18, F19: cut at the capacity, zero from there on. -/
theorem test_trunc : [4, 8, 0].map (fun cap => (nextOf (exec (.trunc [0x31, 0x2E, 0x32, 0x35, 0x30, 0x33, 0x20, 0x56, 0x0A])
      { State.reset with regs := { Regs.reset with lCap := cap } })).map (fun t => (t.regs.outLen, t.regs.outBuf.take 10))) =
    [some (4, [0x31, 0x2E, 0x32, 0x35, 0, 0, 0, 0, 0, 0]),
     some (8, [0x31, 0x2E, 0x32, 0x35, 0x30, 0x33, 0x20, 0x56, 0, 0]),
     some (0, [0, 0, 0, 0, 0, 0, 0, 0, 0, 0])] := by decide
/-- F15, F17. -/
theorem test_trunc_fits : [64, 9].map (fun cap => (nextOf (exec (.trunc [0x31, 0x2E, 0x32, 0x35, 0x30, 0x33, 0x20, 0x56, 0x0A])
      { State.reset with regs := { Regs.reset with lCap := cap } })).map (·.regs.outLen)) = [some 9, some 9] := by decide

/-! ### Raises -/

/-- E5, E6: the lenient report of a raw caller, and the strict line cut to a capacity of 2. -/
theorem test_raiseTimeout :
    (nextOf (exec (.raiseTimeout .waitingForDevice) (withCfg (at_ stWaitReadyPre 24 [] [])
      { cfgRef with strict := false, outMode := .raw }))).map results =
      some ⟨.timeout, some .waitingForDevice, 0, 2, [0x00, 0x00]⟩ ∧
    (nextOf (exec (.raiseTimeout .waitingForDevice) { at_ stWaitReadyPre 24 [] [] with
      regs := { regsAt stWaitReadyPre 24 with lCap := 2 } })).map results =
      some ⟨.timeout, some .waitingForDevice, 0, 2, [0x74, 0x69]⟩ := by decide
/-- E8. -/
theorem test_raiseWindowFault : (nextOf (exec .raiseWindowFault State.reset)).map (fun t => (results t, t.regs.state)) =
    some (⟨.fault, none, 0, 0, []⟩, 0x8) := by decide

/-! ### The hypotheses of the statements are met -/

/-- DecodeOfEncode, EncodeOfDecode, TruncCompletes: a string of exactly 32 bytes; a word of DIAG with OUT_MODE 0. -/
theorem witness_wellFormed : WellFormed (.trunc (List.replicate 32 0x41)) ∧
    decode ⟨.trunc, 0, List.replicate 32 0x41⟩ = .ok (.trunc (List.replicate 32 0x41)) ∧
    decode ⟨.diag, 2, [1]⟩ = .ok (.diagLine .waitingForDevice) := ⟨by decide, rfl, rfl⟩
/-- ReservedCodesRejected: the ends of each range. -/
theorem witness_reserved : 0xA ≤ (0xA#4).toNat ∧ 0xA ≤ (0xF#4).toNat ∧
    0b0001#4 ∉ [0b0000#4, 0b0101#4, 0b1010#4, 0b1011#4] := by decide
/-- StepRunsSelectedOperation, clause by clause; and a state with port values to come. -/
theorem witness_step_selects :
    ({ State.reset with ports := { Ports.unclaimed with rst := true } } : State).ports.rst = true ∧
    ((suspended stDrain 1).regs.waiting = true ∧ (suspended stDrain 1).ports.tick = true ∧ (suspended stDrain 1).ports.rst = false) ∧
    decode ⟨.cmd, (1#2).zeroExtend 4, []⟩ = .ok .start ∧
    decode ⟨.state, State.reset.regs.state, []⟩ = .ok .idle ∧ State.reset.ports.cmd = none ∧ State.reset.future = [] ∧
    ({ State.reset with future := [Ports.unclaimed] } : State).future = Ports.unclaimed :: [] :=
  ⟨rfl, by decide, rfl, rfl, rfl, rfl, rfl⟩
/-- StepsWithoutAnOperation: suspended without a TICK; a reserved code. -/
theorem witness_no_operation :
    (let s : State := { suspended stDrain 1 with ports := { Ports.unclaimed with tick := false } }
     CfgLegal s.cfg ∧ s.ports.rst = false ∧ s.ports.cmd = none ∧ s.regs.waiting = true ∧ s.ports.tick = false) ∧
    (let s := at_ 0xA 0 [] []
     CfgLegal s.cfg ∧ s.ports.rst = false ∧ s.ports.cmd = none ∧ s.regs.waiting = false ∧ 0xA ≤ s.regs.state.toNat) := by
  decide
/-- IllegalConfigRefused. -/
theorem witness_illegal : ¬ CfgLegal (withCfg State.reset { cfgRef with bound := 256 }).cfg := by decide
/-- ResetCompletes, RestingStatesStand, RaiseTimeoutCompletes and the others whose only hypothesis is a legal CFG. -/
theorem witness_legal : CfgLegal State.reset.cfg := by decide

/-- The hypotheses and the condition of the statements of START and INIT: the ports in their widths, and WindowOK on them. -/
abbrev windowAccepted (s : State) (offs : List (Nat × Nat)) : Prop :=
  s.ports.winValid = true ∧ s.ports.winBase ≠ 0 ∧ s.ports.winLen ≠ 0 ∧
    s.ports.winBase + s.ports.winLen ≤ 2 ^ s.cfg.aw ∧ ∀ e ∈ offs, e.1 + e.2 ≤ s.ports.winLen

/-- START and INIT find the block in IDLE and the ports in their widths. -/
abbrev portsReady (s : State) : Prop :=
  s.regs.state = stIdle ∧ s.ports.winBase < 2 ^ s.cfg.aw ∧ s.ports.winLen < 2 ^ (s.cfg.aw + 1)

/-- StartCompletes: the exact fit of E12, and one byte less (E11). -/
theorem witness_start : portsReady (windowed 0xD000 4 true) ∧
    windowAccepted (windowed 0xD000 4 true) (acquireOffs cfgRef) ∧ portsReady (windowed 0xD000 3 true) ∧
    ¬ windowAccepted (windowed 0xD000 3 true) (acquireOffs cfgRef) := by decide
/-- StartCompletes: the top of the address space (B8) and past it (B9). -/
theorem witness_start_top : portsReady (windowed 0xFFFFFFF8 8 true) ∧
    windowAccepted (windowed 0xFFFFFFF8 8 true) (acquireOffs cfgRef) ∧ portsReady (windowed 0xFFFFFFFC 8 true) ∧
    ¬ windowAccepted (windowed 0xFFFFFFFC 8 true) (acquireOffs cfgRef) := by decide
/-- InitCompletes: the table reaches offset 0x06, so 7 fits exactly and 6 does not. -/
theorem witness_init : portsReady (windowed 0xD000 7 true) ∧
    windowAccepted (windowed 0xD000 7 true) (initOffs cfgRef) ∧ portsReady (windowed 0xD000 6 true) ∧
    ¬ windowAccepted (windowed 0xD000 6 true) (initOffs cfgRef) := by decide
/-- AckCompletes, UnacceptedCommandsChangeNothing: each terminal state, and states outside IDLE and the terminal ones. -/
theorem witness_commands : Terminal (at_ stSuccess 0 [] []).regs.state ∧ Terminal (at_ stTimeout 0 [] []).regs.state ∧
    Terminal (at_ stFault 0 [] []).regs.state ∧ (at_ stDrain 0 [] []).regs.state ≠ stIdle ∧
    ¬ Terminal (at_ stDrain 0 [] []).regs.state ∧ ¬ Terminal State.reset.regs.state := by decide
/-- DisabledStateOperationsChangeNothing: another state, and the right state suspended. -/
theorem witness_disabled : State.reset.regs.state ≠ stDrain ∧ (suspended stDrain 1).regs.state = stDrain ∧
    (suspended stDrain 1).regs.waiting = true := by decide

/-- The condition under which the statements say a poll of READY passes. -/
abbrev readyAnswer (s : State) : Prop :=
  ((s.dev.statusAnswer &&& s.cfg.readyMask) ≠ 0) ↔ s.cfg.readyPol = true

/-- The condition under which the statements say a poll of NOT_EMPTY fails. -/
abbrev pendingAnswer (s : State) : Prop :=
  ((s.dev.statusAnswer &&& s.cfg.neMask) ≠ 0) ↔ s.cfg.nePol = true

/-- WaitReadyPreCompletes: the three branches, with RETRY on each side of BOUND - 1. -/
theorem witness_waitReadyPre :
    (let s := at_ stWaitReadyPre 24 [0x80] []
     CfgLegal s.cfg ∧ s.regs.state = stWaitReadyPre ∧ s.regs.waiting = false ∧ readyAnswer s) ∧
    (let s := at_ stWaitReadyPre 24 [0x00] []
     s.regs.state = stWaitReadyPre ∧ s.regs.waiting = false ∧ ¬ readyAnswer s ∧ s.regs.retry.toNat + 1 = s.cfg.bound) ∧
    (let s := at_ stWaitReadyPre 23 [0x00] []
     s.regs.state = stWaitReadyPre ∧ s.regs.waiting = false ∧ ¬ readyAnswer s ∧ s.regs.retry.toNat + 1 ≠ s.cfg.bound) := by
  decide
/-- WaitReadyPostCompletes, the same. -/
theorem witness_waitReadyPost :
    (let s := at_ stWaitReadyPost 24 [0x80] []
     CfgLegal s.cfg ∧ s.regs.state = stWaitReadyPost ∧ s.regs.waiting = false ∧ readyAnswer s) ∧
    (let s := at_ stWaitReadyPost 24 [0x40] []
     s.regs.state = stWaitReadyPost ∧ s.regs.waiting = false ∧ ¬ readyAnswer s ∧ s.regs.retry.toNat + 1 = s.cfg.bound) ∧
    (let s := at_ stWaitReadyPost 23 [0x40] []
     s.regs.state = stWaitReadyPost ∧ s.regs.waiting = false ∧ ¬ readyAnswer s ∧ s.regs.retry.toNat + 1 ≠ s.cfg.bound) := by
  decide
/-- DrainCompletes, a passed check. -/
theorem witness_drain_passed :
    let s := at_ stDrain 0 [0x80] []
    CfgLegal s.cfg ∧ s.regs.state = stDrain ∧ s.regs.waiting = false ∧ ¬ pendingAnswer s := by decide
/-- DrainCompletes, a failed check below BOUND, on an aligned address. -/
theorem witness_drain_failed :
    let s := at_ stDrain 23 [0xC0] []
    CfgLegal s.cfg ∧ s.regs.state = stDrain ∧ s.regs.waiting = false ∧ pendingAnswer s ∧
      (s.regs.lBase + s.cfg.offData) % 2 = 0 ∧ s.regs.retry.toNat + 1 ≠ s.cfg.bound := by decide
/-- DrainCompletes, a failed check at BOUND, on a bus that carries a misaligned read. -/
theorem witness_drain_bound :
    let s := withCfg (at_ stDrain 24 [0xC0] []) { cfgRef with offData := 0x05, busAllowsMisaligned := true }
    CfgLegal s.cfg ∧ s.regs.state = stDrain ∧ s.regs.waiting = false ∧ pendingAnswer s ∧
      s.cfg.busAllowsMisaligned = true ∧ s.regs.retry.toNat + 1 = s.cfg.bound := by decide
/-- TriggerCompletes. -/
theorem witness_trigger : CfgLegal (at_ stTrigger 0 [] []).cfg ∧ (at_ stTrigger 0 [] []).regs.state = stTrigger ∧
    (at_ stTrigger 0 [] []).regs.waiting = false := by decide
/-- ReadCompletes, in both output modes. -/
theorem witness_read :
    (let s := at_ stRead 0 [] []
     CfgLegal s.cfg ∧ s.regs.state = stRead ∧ s.regs.waiting = false ∧ (s.regs.lBase + s.cfg.offData) % 2 = 0 ∧
       s.cfg.outMode = .formatted) ∧
    (let s := withCfg (at_ stRead 0 [] []) { cfgRef with outMode := .raw, offData := 0x05, busAllowsMisaligned := true }
     CfgLegal s.cfg ∧ s.regs.state = stRead ∧ s.regs.waiting = false ∧ s.cfg.busAllowsMisaligned = true) := by decide
/-- InitStateCompletes: the last entry, and the table exhausted. -/
theorem witness_initState :
    (let s : State := { at_ stInit 0 [] [] with regs := { regsAt stInit 0 with cfgIdx := 2 } }
     CfgLegal s.cfg ∧ s.regs.state = stInit ∧ s.regs.waiting = false ∧ s.regs.cfgIdx.toNat < s.cfg.nCfg) ∧
    (let s : State := { at_ stInit 0 [] [] with regs := { regsAt stInit 0 with cfgIdx := 3 } }
     s.regs.state = stInit ∧ s.regs.waiting = false ∧ s.regs.cfgIdx.toNat = s.cfg.nCfg) := by decide
/-- SuspendExpireCompletes. -/
theorem witness_suspendExpire : CfgLegal (suspended stDrain 1).cfg ∧ (suspended stDrain 1).regs.waiting = true := by decide
/-- MisalignedDataReadIsStuck (B6), in READ and in a failed check of DRAIN. -/
theorem witness_misaligned :
    (let s := withCfg (at_ stRead 0 [] []) { cfgRef with offData := 0x05 }
     CfgLegal s.cfg ∧ s.cfg.busAllowsMisaligned = false ∧ (s.regs.lBase + s.cfg.offData) % 2 = 1 ∧ s.regs.state = stRead ∧
       s.regs.waiting = false) ∧
    (let s := withCfg (at_ stDrain 0 [0x40] []) { cfgRef with offData := 0x05 }
     (s.regs.lBase + s.cfg.offData) % 2 = 1 ∧ s.regs.state = stDrain ∧ s.regs.waiting = false ∧ pendingAnswer s) := by decide
/-- RdStatusCompletes, RdDataCompletes: an answer queued, and none. -/
theorem witness_device : (at_ stIdle 0 [0x80] [(1, 2)]).dev.status = 0x80 :: [] ∧
    (at_ stIdle 0 [0x80] [(1, 2)]).dev.data = (1, 2) :: [] ∧ State.reset.dev.status = [] ∧ State.reset.dev.data = [] ∧
    (State.reset.regs.lBase + State.reset.cfg.offData) % 2 = 0 := by decide
/-- OtherStatusBitsIgnored: 0x00 and 0x3F (Q1, Q5) in each polling state. -/
theorem witness_status_bits : ∀ code ∈ [stWaitReadyPre, stDrain, stWaitReadyPost],
    let s := at_ code 0 [0x00] []
    CfgLegal s.cfg ∧ 0x00#8 &&& (s.cfg.readyMask ||| s.cfg.neMask) = 0x3F#8 &&& (s.cfg.readyMask ||| s.cfg.neMask) ∧
      s.dev.status = 0x00 :: [] ∧ dataReadStuck s = false ∧ s.regs.waiting = false ∧ s.regs.state = code := by decide
/-- ScaleCompletes (second clause), ConvertIsMonotone (equal operands, 0, a multiple of the divisor: M2), ConvertStepsAtPrecisionFour. -/
theorem witness_scaler : 4095#16 = extract cfgRef.extractMode 0xFFFF ∧ (32752#16).toNat ≤ (32752#16).toNat ∧
    (32752#16).toNat = 32752 * 1 ∧ (0#16).toNat ≤ (65535#16).toNat ∧ 4094 < 4095 := by decide
/-- FormatCompletes: P = 0 and P = 14. -/
theorem witness_format : CfgLegal { cfgRef with p := 0 } ∧ CfgLegal { cfgRef with p := 14 } := by decide
/-- DecimalCompletes (last clause), ReportsFitTheBuffer: the longest legal string of a sample (V19). -/
theorem witness_reports : CfgLegal { cfgRef with p := 14 } ∧
    (125030532486565#64).toNat = convert 14 (extract 1 0xFFFF).toNat := by decide

/-- The invariant at a state in the window of the vectors with nothing delivered. -/
theorem inv_at (code : StateCode) (oc : ResultCode) (st : Option Stage) (wait : Bool) (retry : Byte)
    (h : code.toNat ≤ 9 ∧ (wait = true → Polling code) ∧ (Polling code → retry.toNat < 25) ∧ retry.toNat ≤ 25 ∧
      (Working code → oc = .none) ∧ (code = stSuccess → oc = .success) ∧ (code = stTimeout → oc = .timeout) ∧
      (code = stFault → oc = .fault) ∧ (st ≠ none ↔ oc = .timeout)) :
    Inv { State.reset with regs := { regsAt code retry with outcome := oc, stage := st, waiting := wait } } :=
  { sequencing := ⟨h.1, h.2.1, h.2.2.1, h.2.2.2.1, show (0#8).toNat ≤ 3 by decide⟩
    window :=
      ⟨show 0xD000 < 2 ^ 32 by decide, show 8 < 2 ^ 33 by decide,
        fun _ => ⟨show 0xD000 ≠ 0 by decide, show 8 ≠ 0 by decide, show 0xD000 + 8 ≤ 2 ^ 32 by decide,
          show ∀ e ∈ acquireOffs cfgRef, e.1 + e.2 ≤ 8 by decide⟩,
        fun _ => ⟨show 0xD000 ≠ 0 by decide, show 8 ≠ 0 by decide, show 0xD000 + 8 ≤ 2 ^ 32 by decide,
          show ∀ e ∈ initOffs cfgRef, e.1 + e.2 ≤ 8 by decide⟩⟩
    result :=
      { working := h.2.2.2.2.1
        success := h.2.2.2.2.2.1
        timeout := h.2.2.2.2.2.2.1
        fault := h.2.2.2.2.2.2.2.1
        stage := h.2.2.2.2.2.2.2.2
        bufLength := show (List.replicate 32 (0 : Byte)).length = 32 by decide
        lenBound := show (0#6).toNat ≤ 32 by decide
        bufZero := fun i _ hi => show (List.replicate 32 (0 : Byte))[i]? = some 0 by
          rw [List.getElem?_replicate, if_pos hi] }
    scaler :=
      ⟨show (0 : Half) = extract 1 0 by decide, show (0#64).toNat = (0#16).toNat * 10 * 10 ^ 4 by decide,
        show (0#64).toNat = (0#64).toNat / 32752 by decide, show (0#64).toNat < 2 ^ 64 by decide⟩ }

/-- StepKeepsInvariant, AccessesStayInTheWindow, StepKeepsConfigAndTrace, StateChangesOnlyByTheTable, StepDoesNotReadTheRecord: an engine step
that makes an access, and a suspended state. -/
theorem witness_invariant_step :
    (∃ s t, Inv s ∧ step s = .next t ∧ t.trace = [⟨.wrTrigger, 0xD003, 0x01⟩] ∧ s.regs.state = stTrigger) ∧
    (∃ s t, Inv s ∧ step s = .next t ∧ s.regs.waiting = true) :=
  ⟨⟨_, _, inv_at stTrigger .none none false 0 (by decide), rfl, rfl, rfl⟩,
    ⟨_, _, inv_at stDrain .none none true 24 (by decide), rfl, rfl⟩⟩
/-- ResultsHoldUntilNextOperation: a terminal state, and IDLE with no START or INIT. -/
theorem witness_results_hold : (∃ t, step (at_ stTimeout 25 [] []) = .next t) ∧ Terminal (at_ stTimeout 25 [] []).regs.state ∧
    (∃ t, step State.reset = .next t) ∧ State.reset.regs.state = stIdle ∧ State.reset.ports.rst = false ∧
    State.reset.ports.cmd ≠ some 1 ∧ State.reset.ports.cmd ≠ some 2 :=
  ⟨⟨_, rfl⟩, by decide, ⟨_, rfl⟩, rfl, rfl, by decide, by decide⟩
/-- CommandsCannotDisturbAnOperation: a START while polling. -/
theorem witness_commands_working :
    let s : State := { at_ stDrain 0 [] [] with ports := { Ports.unclaimed with cmd := some 1 } }
    CfgLegal s.cfg ∧ Working s.regs.state ∧ s.ports.rst = false ∧ s.ports.cmd ≠ none ∧ s.regs.waiting = false := by decide
/-- DoneShowsTheOutcome: each terminal state. -/
theorem witness_done : (∃ s, Inv s ∧ s.regs.state = stSuccess) ∧ (∃ s, Inv s ∧ s.regs.state = stTimeout) ∧
    (∃ s, Inv s ∧ s.regs.state = stFault) :=
  ⟨⟨_, inv_at stSuccess .success none false 0 (by decide), rfl⟩,
    ⟨_, inv_at stTimeout .timeout (some .waitingForData) false 25 (by decide), rfl⟩,
    ⟨_, inv_at stFault .fault none false 0 (by decide), rfl⟩⟩
/-- AcquisitionTerminates, AcquisitionTraceIsBounded, OutcomeTellsTheTrace: what START leaves. -/
theorem witness_acquisition :
    let s := at_ stWaitReadyPre 0 [] []
    CfgLegal s.cfg ∧ AtAcquisitionStart s ∧ QuietEnvironment s ∧ NoResetNoAck s ∧ dataReadStuck s = false := by decide
/-- AttachWritesTheTable. -/
theorem witness_attach :
    let s := at_ stInit 0 [] []
    CfgLegal s.cfg ∧ s.regs.state = stInit ∧ s.regs.cfgIdx = 0 ∧ s.regs.waiting = false ∧ QuietEnvironment s := by decide

/-- An acquisition with BOUND = 1, its device's answers given. -/
def oneCheck (status : List Byte) (data : List (Byte × Byte)) : State :=
  withCfg (at_ stWaitReadyPre 0 status data) { cfgRef with bound := 1 }

/-- AcquisitionTraceIsBounded, OutcomeTellsTheTrace: each of the four ends is reached (W6, E7 and the two other stages with BOUND = 1). -/
theorem witness_outcomes :
    (nextOf (Sys2Proof.core.run 5 (oneCheck [0x80, 0x80, 0x80] [(0x10, 0x00)]))).map (fun t => (t.regs.state, t.regs.value)) =
      some (stSuccess, 3) ∧
    (nextOf (Sys2Proof.core.run 1 (oneCheck [0x00] []))).map (·.regs.stage) = some (some .waitingForDevice) ∧
    (nextOf (Sys2Proof.core.run 2 (oneCheck [0x80, 0xC0] [(0, 0)]))).map (·.regs.stage) = some (some .discardingData) ∧
    (nextOf (Sys2Proof.core.run 4 (oneCheck [0x80, 0x80, 0x00] []))).map (·.regs.stage) = some (some .waitingForData) := by
  decide

end Sys2Proof.Machine.Tests
end

/-! # The scope of a step (00_scope.md)

Which operation a step runs (O5), the refusal of an illegal CFG (O7), what no step changes (O48), and the noninterference
of the record (O53). -/

namespace Sys2Proof.Machine

section
variable {s t : State} {i : Instr}

/-! ### Which operation a step runs -/

theorem fetch_of_rst (h : s.ports.rst = true) : fetch s = .ok (some .reset) := if_pos h

theorem fetch_of_tick (hr : s.ports.rst = false) (hw : s.regs.waiting = true) (ht : s.ports.tick = true) :
    fetch s = .ok (some .suspendExpire) := by
  simp only [fetch, hr, hw, ht]
  rfl

theorem fetch_of_cmd {c : BitVec 2} (hr : s.ports.rst = false) (hw : s.regs.waiting = false ∨ s.ports.tick = false)
    (hc : s.ports.cmd = some c) (hd : decode ⟨.cmd, c.zeroExtend 4, []⟩ = .ok i) : fetch s = .ok (some i) := by
  have hn : (s.regs.waiting && s.ports.tick) = false := Bool.and_eq_false_iff.mpr hw
  simp only [fetch, hr, hn, hc, hd]
  rfl

theorem fetch_of_state (hr : s.ports.rst = false) (hc : s.ports.cmd = none) (hw : s.regs.waiting = false)
    (hd : decode ⟨.state, s.regs.state, []⟩ = .ok i) : fetch s = .ok (some i) := by
  simp only [fetch, hr, hc, hw, hd]
  rfl

theorem step_of_fetch (h : fetch s = .ok (some i)) : step s = settle (exec i s) := by
  rw [step, h]

theorem advance_of_cons {p : Ports} {rest : List Ports} (h : s.future = p :: rest) :
    advance s = { s with ports := p, future := rest } := by
  rw [advance, h]
  rfl

theorem advance_of_nil (h : s.future = []) :
    advance s = { s with ports := { s.ports with rst := false, cmd := none, tick := true } } := by
  cases s
  cases h
  rfl

/-! ### The refusal of an illegal configuration -/

/-- The three branches of the step (an operation, no operation, a reserved code) all pass the guard. -/
theorem step_of_illegal (h : ¬ CfgLegal s.cfg) : step s = .refused .illegalConfig := by
  unfold step
  split
  · rw [exec_of_illegal _ h]
    rfl
  · rw [guardLegal_of_illegal h]
    rfl
  · exact guardLegal_of_illegal h

/-! ### What no step changes -/

theorem StepCase.cfg_eq (h : StepCase s t) : t.cfg = s.cfg := by cases h <;> rfl

theorem step_cfg (h : step s = .next t) : t.cfg = s.cfg := by
  obtain ⟨-, u, rfl, hu⟩ := step_cases h
  rw [advance_cfg, hu.cfg_eq]

end

/-! ### The record: the trace and `ret`

Put a longer past `tr` before the trace and another `v` in `ret`: every part of the step commutes with this change, so the
step does not read the record, only appends to it. -/

/-- The state with the accesses `tr` before its trace, and the result `v`. -/
def State.onRecord (tr : List Access) (v : Result) (s : State) : State := { s with trace := tr ++ s.trace, ret := v }

/-- The state with an empty record. -/
def State.blank (s : State) : State := { s with trace := [], ret := .nothing }

/-- A change of the next state, where there is one. -/
def mapNext (f : State → State) : StepOutcome → StepOutcome
  | .next s => .next (f s)
  | .fault r => .fault r
  | .refused r => .refused r

theorem mapNext_eq_next {f : State → State} {k : StepOutcome} {t : State} :
    mapNext f k = .next t ↔ ∃ u, k = .next u ∧ t = f u := by
  cases k <;> simp [mapNext, eq_comm]

section
variable (tr : List Access) (v : Result) (s : State) (k : StepOutcome)

@[simp] theorem State.onRecord_cfg : (s.onRecord tr v).cfg = s.cfg := rfl
@[simp] theorem State.onRecord_regs : (s.onRecord tr v).regs = s.regs := rfl
@[simp] theorem State.onRecord_trace : (s.onRecord tr v).trace = tr ++ s.trace := rfl

theorem State.onRecord_blank : s.blank.onRecord tr v = { s with trace := tr, ret := v } := by
  rw [State.onRecord, State.blank, List.append_nil]

theorem logAccess_onRecord (a : Access) : (s.onRecord tr v).logAccess a = (s.logAccess a).onRecord tr v := by
  simp only [State.onRecord, State.logAccess, List.append_assoc]

theorem readStatus_onRecord : readStatus (s.onRecord tr v) = (readStatus s).onRecord tr v :=
  logAccess_onRecord tr v (s.setDev s.dev.afterStatus) (statusAccess s)

theorem readData_onRecord : readData (s.onRecord tr v) = (readData s).onRecord tr v :=
  logAccess_onRecord tr v (s.setDev s.dev.afterData) (dataAccess s)

theorem writeTrigger_onRecord : writeTrigger (s.onRecord tr v) = (writeTrigger s).onRecord tr v :=
  logAccess_onRecord tr v s (triggerAccess s)

theorem writeConfig_onRecord (off : Nat) (b : Byte) :
    writeConfig off b (s.onRecord tr v) = (writeConfig off b s).onRecord tr v :=
  logAccess_onRecord tr v s (configAccess s off b)

theorem readyPoll_onRecord (st : Stage) (next : StateCode) :
    readyPoll st next (s.onRecord tr v) = (readyPoll st next s).onRecord tr v := by
  unfold readyPoll
  rw [readStatus_onRecord, apply_ite (State.onRecord tr v)]
  rfl

theorem drainPoll_onRecord : drainPoll (s.onRecord tr v) = (drainPoll s).onRecord tr v := by
  unfold drainPoll
  rw [readStatus_onRecord, readData_onRecord, apply_ite (State.onRecord tr v)]
  rfl

theorem guardLegal_onRecord :
    guardLegal (s.onRecord tr v) (mapNext (State.onRecord tr v) k) = mapNext (State.onRecord tr v) (guardLegal s k) := by
  by_cases h : CfgLegal s.cfg
  · rw [guardLegal_of_legal h, guardLegal_of_legal (s := s.onRecord tr v) h]
  · rw [guardLegal_of_illegal h, guardLegal_of_illegal (s := s.onRecord tr v) h]
    rfl

theorem engineOp_onRecord (code : StateCode) :
    engineOp code (s.onRecord tr v) (mapNext (State.onRecord tr v) k) =
      mapNext (State.onRecord tr v) (engineOp code s k) := by
  unfold engineOp
  rw [← guardLegal_onRecord, apply_ite (mapNext (State.onRecord tr v))]
  rfl

/-- A state operation that cannot stop. -/
theorem engineOp_next_onRecord (code : StateCode) {s t u : State} (h : u = t.onRecord tr v) :
    engineOp code (s.onRecord tr v) (.next u) = mapNext (State.onRecord tr v) (engineOp code s (.next t)) := by
  rw [← engineOp_onRecord, h]
  rfl

theorem hostCommand_onRecord (accepted : Bool) (r : Regs) :
    hostCommand accepted (s.onRecord tr v) r = mapNext (State.onRecord tr v) (hostCommand accepted s r) := by
  unfold hostCommand
  rw [← guardLegal_onRecord]
  cases accepted <;> rfl

theorem execDrain_onRecord : execDrain (s.onRecord tr v) = mapNext (State.onRecord tr v) (execDrain s) := by
  unfold execDrain
  rw [← engineOp_onRecord, drainPoll_onRecord, apply_ite (mapNext (State.onRecord tr v))]
  rfl

theorem execRead_onRecord : execRead (s.onRecord tr v) = mapNext (State.onRecord tr v) (execRead s) := by
  unfold execRead
  rw [← engineOp_onRecord, readData_onRecord, apply_ite (mapNext (State.onRecord tr v))]
  rfl

theorem execInitState_onRecord :
    execInitState (s.onRecord tr v) = mapNext (State.onRecord tr v) (execInitState s) := by
  unfold execInitState
  rw [← engineOp_onRecord, apply_ite (mapNext (State.onRecord tr v))]
  simp only [State.onRecord_cfg, State.onRecord_regs, writeConfig_onRecord]
  cases s.cfg.cfgTable[s.regs.cfgIdx.toNat]? <;> rfl

/-- Every operation a step can select commutes with a change of the record. -/
theorem exec_onRecord {i : Instr} (h : fetch s = .ok (some i)) :
    exec i (s.onRecord tr v) = mapNext (State.onRecord tr v) (exec i s) := by
  obtain ⟨-, rfl⟩ | ⟨-, -, -, rfl⟩ | ⟨-, -, c, -, ⟨-, rfl⟩ | ⟨-, rfl⟩ | ⟨-, rfl⟩ | ⟨-, rfl⟩⟩ | ⟨-, -, -, hd⟩ := fetch_cases h
  · exact guardLegal_onRecord tr v s (.next (s.setRegs Regs.reset))
  · exact guardLegal_onRecord tr v s (.next (s.setRegs { s.regs with waiting := false }))
  · exact guardLegal_onRecord tr v s (.next s)
  · exact hostCommand_onRecord tr v s _ _
  · exact hostCommand_onRecord tr v s _ _
  · exact hostCommand_onRecord tr v s _ _
  · obtain ⟨-, rfl⟩ | ⟨-, rfl⟩ | ⟨-, rfl⟩ | ⟨-, rfl⟩ | ⟨-, rfl⟩ | ⟨-, rfl⟩ | ⟨-, rfl⟩ | ⟨-, rfl⟩ | ⟨-, rfl⟩ | ⟨-, rfl⟩ :=
      decode_state_ok hd
    · exact engineOp_next_onRecord tr v stIdle rfl
    · exact engineOp_next_onRecord tr v stWaitReadyPre (readyPoll_onRecord tr v s .waitingForDevice stDrain)
    · exact execDrain_onRecord tr v s
    · exact engineOp_next_onRecord tr v stTrigger
        (congrArg (State.setRegs · { s.regs with retry := 0, state := stWaitReadyPost }) (writeTrigger_onRecord tr v s))
    · exact engineOp_next_onRecord tr v stWaitReadyPost (readyPoll_onRecord tr v s .waitingForData stRead)
    · exact execRead_onRecord tr v s
    · exact engineOp_next_onRecord tr v stSuccess rfl
    · exact engineOp_next_onRecord tr v stTimeout rfl
    · exact engineOp_next_onRecord tr v stFault rfl
    · exact execInitState_onRecord tr v s

theorem fetch_onRecord : fetch (s.onRecord tr v) = fetch s := rfl

theorem advance_onRecord : advance (s.onRecord tr v) = (advance s).onRecord tr v := by
  cases h : s.future with
  | nil => rw [advance_of_nil h, advance_of_nil (s := s.onRecord tr v) h]; rfl
  | cons p rest => rw [advance_of_cons h, advance_of_cons (s := s.onRecord tr v) h]; rfl

theorem settle_onRecord :
    settle (mapNext (State.onRecord tr v) k) = mapNext (State.onRecord tr v) (settle k) := by
  cases k with
  | next s => exact congrArg Host.Outcome.next (advance_onRecord tr v s)
  | fault f => rfl
  | refused r => rfl

/-- A step commutes with a change of the record. -/
theorem step_onRecord : step (s.onRecord tr v) = mapNext (State.onRecord tr v) (step s) := by
  unfold step
  rw [fetch_onRecord]
  split
  · rename_i i hi
    rw [exec_onRecord tr v s hi, settle_onRecord]
  · rw [← settle_onRecord, ← guardLegal_onRecord]
    rfl
  · exact guardLegal_onRecord tr v s (.fault .reservedState)

end

/-- A step is the step from the empty record, with the record of the state put back. -/
theorem step_eq_next_blank {s t : State} (h : step s = .next t) :
    ∃ u, step s.blank = .next u ∧ t = u.onRecord s.trace s.ret :=
  mapNext_eq_next.mp ((step_onRecord s.trace s.ret s.blank).symm.trans ((congrArg step (s.onRecord_blank _ _)).trans h))

/-! ### The statements -/

/-- Settles O48: `cfg` by the cases of a step; the trace extends because the step commutes with a past put before it. -/
theorem stepKeepsConfigAndTrace : Obligations.StepKeepsConfigAndTrace := by
  intro s t h
  obtain ⟨u, -, hu⟩ := step_eq_next_blank h
  exact ⟨step_cfg h, u.trace, by rw [hu, State.onRecord_trace]⟩

/-- Settles O53: both steps are the step from the empty record, each with its own record put back. -/
theorem stepDoesNotReadTheRecord : Obligations.StepDoesNotReadTheRecord := by
  intro s t tr v h
  obtain ⟨u, hu, rfl⟩ := step_eq_next_blank h
  refine ⟨u.trace, rfl, ?_⟩
  rw [← State.onRecord_blank, step_onRecord, hu]
  rfl

/-- Settles O5, by the operation `fetch` selects in each of the four cases. -/
theorem stepRunsSelectedOperation : Obligations.StepRunsSelectedOperation := fun _ =>
  ⟨fun hr => step_of_fetch (fetch_of_rst hr),
    fun hr hw ht => step_of_fetch (fetch_of_tick hr hw ht),
    fun hr hw _ _ hc hd => step_of_fetch (fetch_of_cmd hr hw hc hd),
    fun hr hc hw _ hd => step_of_fetch (fetch_of_state hr hc hw hd),
    fun _ => rfl,
    fun _ => rfl,
    fun _ _ _ h => congrArg Host.Outcome.next (advance_of_cons h),
    fun _ h => congrArg Host.Outcome.next (advance_of_nil h)⟩

/-- Settles O7: every operation and every branch of the step passes the guard of R9. -/
theorem illegalConfigRefused : Obligations.IllegalConfigRefused :=
  fun _ h => ⟨fun i => exec_of_illegal i h, step_of_illegal h⟩

end Sys2Proof.Machine

/-! # The state of the block (10_state.md)

The invariant (O47, O46), what it says of a terminal state (O54), the results between two operations (O51), the status bits
no rule reads (O30), the steps that execute no operation (O6) and the reset values (O8).

The four parts of the invariant speak of CFG and of the registers only. Each part has one lemma for every way the steps
touch its registers, and one theorem over the cases of a step. -/

namespace Sys2Proof.Machine

section
variable {s t u : State} {c : Cfg} {code next : StateCode} {st : Stage} {oc : ResultCode}

/-! ### What legality says of the counters (00_scope.md R8, R9) -/

theorem bound_range_of_legal (h : CfgLegal c) : 1 ≤ c.bound ∧ c.bound ≤ 255 := by
  obtain ⟨-, -, -, hb, -⟩ := h
  exact hb

theorem nCfg_le_of_legal (h : CfgLegal c) : c.nCfg ≤ 255 := by
  obtain ⟨⟨-, -, -, hn, -⟩, -⟩ := h
  exact hn

/-- A counter below its limit does not wrap (10_state.md R25). -/
theorem counter_succ_toNat {b : Byte} {n : Nat} (hb : b.toNat < n) (hn : n ≤ 255) : (b + 1).toNat = b.toNat + 1 := by
  rw [BitVec.toNat_add]
  exact Nat.mod_eq_of_lt (show b.toNat + 1 < 256 by omega)

/-! ### The states a poll of READY joins -/

theorem ReadyPoll.polling (h : ReadyPoll code st next) : Polling code := by cases h <;> decide

/-- A passed poll goes on to a state of the same acquisition. -/
theorem ReadyPoll.acquiring_next (h : ReadyPoll code st next) : Acquiring next := by cases h <;> decide

theorem EngineStep.acquiring (h : EngineStep s code) (ha : Acquiring code) : Acquiring s.regs.state := h.state ▸ ha

theorem Acquiring.ne_init (h : Acquiring code) : code ≠ stInit := by rintro rfl; revert h; decide

theorem Acquiring.code_le (h : Acquiring code) : code.toNat ≤ 9 := by revert code; decide

/-! ### Sequencing -/

/-- RETRY cleared, not suspended: reset, every accepted command, every passed poll, TRIGGER. -/
theorem SequencingInv.of_retry_zero (hs : t.regs.state = code) (hcode : code.toNat ≤ 9) (hb : 1 ≤ t.cfg.bound)
    (hw : t.regs.waiting = false) (hr : t.regs.retry = 0) (hi : t.regs.cfgIdx.toNat ≤ t.cfg.nCfg) : SequencingInv t where
  stateCode := hs ▸ hcode
  waiting h := by rw [hw] at h; cases h
  retryPolling _ := by rw [hr]; exact hb
  retry := by rw [hr]; exact Nat.zero_le _
  cfgIdx := hi

/-- A terminal state or IDLE, not suspended. -/
theorem SequencingInv.of_resting (hs : t.regs.state = code) (hcode : code.toNat ≤ 9 ∧ ¬ Polling code)
    (hw : t.regs.waiting = false) (hr : t.regs.retry.toNat ≤ t.cfg.bound) (hi : t.regs.cfgIdx.toNat ≤ t.cfg.nCfg) :
    SequencingInv t where
  stateCode := hs ▸ hcode.1
  waiting h := by rw [hw] at h; cases h
  retryPolling h := absurd (hs ▸ h) hcode.2
  retry := hr
  cfgIdx := hi

/-- Outside the polling states the block is not suspended (10_state.md R33). -/
theorem SequencingInv.waiting_false (h : SequencingInv s) (hp : ¬ Polling s.regs.state) : s.regs.waiting = false :=
  Bool.eq_false_iff.mpr fun hw => hp (h.waiting hw)

/-- RETRY after one more failed check of a polling state. -/
theorem SequencingInv.retry_succ (h : SequencingInv s) (hl : CfgLegal s.cfg) (hp : Polling s.regs.state) :
    (s.regs.retry + 1).toNat = s.regs.retry.toNat + 1 :=
  counter_succ_toNat (h.retryPolling hp) (bound_range_of_legal hl).2

/-- A failed check below BOUND: the suspend. -/
theorem SequencingInv.of_suspend (h : SequencingInv s) (hl : CfgLegal s.cfg) (hp : Polling s.regs.state)
    (hn : s.regs.retry.toNat + 1 ≠ s.cfg.bound) (hc : t.cfg = s.cfg)
    (hr : t.regs = { s.regs with status := statusValue s, retry := s.regs.retry + 1, waiting := true }) :
    SequencingInv t := by
  have hlt : (s.regs.retry + 1).toNat < s.cfg.bound :=
    (h.retry_succ hl hp).trans_lt (lt_of_le_of_ne (h.retryPolling hp) hn)
  constructor <;> simp only [hr, hc]
  · exact h.stateCode
  · exact fun _ => hp
  · exact fun _ => hlt
  · exact hlt.le
  · exact h.cfgIdx

/-- A failed check at BOUND: the timeout. -/
theorem SequencingInv.of_timeout (h : SequencingInv s) (hl : CfgLegal s.cfg) (hp : Polling s.regs.state)
    (hn : s.regs.retry.toNat + 1 = s.cfg.bound) (hc : t.cfg = s.cfg)
    (hr : t.regs = raiseTimeout s.cfg st { s.regs with status := statusValue s, retry := s.regs.retry + 1 }) :
    SequencingInv t := by
  rw [raiseTimeout_eq] at hr
  refine .of_resting (code := stTimeout) ?_ (by decide) ?_ ?_ ?_ <;> simp only [hr, hc]
  · exact ((h.retry_succ hl hp).trans hn).le
  · exact h.cfgIdx

theorem StepCase.sequencing (hl : CfgLegal s.cfg) (h : SequencingInv s) (hu : StepCase s u) : SequencingInv u := by
  have hb := (bound_range_of_legal hl).1
  cases hu with
  | stand => exact h
  | reset => exact .of_retry_zero (code := stIdle) rfl (by decide) hb rfl rfl (Nat.zero_le _)
  | expire => exact ⟨h.stateCode, nofun, h.retryPolling, h.retry, h.cfgIdx⟩
  | start => exact .of_retry_zero (code := stWaitReadyPre) rfl (by decide) hb rfl rfl (Nat.zero_le _)
  | init => exact .of_retry_zero (code := stInit) rfl (by decide) hb rfl rfl (Nat.zero_le _)
  | startFault | initFault => exact .of_retry_zero (code := stFault) rfl (by decide) hb rfl rfl (Nat.zero_le _)
  | ack _ _ hs =>
    have hw := h.waiting_false ((show ∀ code, Terminal code → ¬ Polling code by decide) _ hs)
    exact .of_resting (code := stIdle) rfl (by decide) hw h.retry h.cfgIdx
  | ready hp he => exact .of_retry_zero rfl hp.acquiring_next.code_le hb he.waiting rfl h.cfgIdx
  | drained he => exact .of_retry_zero (code := stTrigger) rfl (by decide) hb he.waiting rfl h.cfgIdx
  | trigger he => exact .of_retry_zero (code := stWaitReadyPost) rfl (by decide) hb he.waiting rfl h.cfgIdx
  | notReady hp he _ hn => exact h.of_suspend hl (he.state ▸ hp.polling) hn rfl rfl
  | notDrained he _ _ hn => exact h.of_suspend hl (he.state ▸ by decide) hn rfl rfl
  | readyTimeout hp he _ hn => exact h.of_timeout hl (he.state ▸ hp.polling) hn rfl rfl
  | drainTimeout he _ _ hn => exact h.of_timeout hl (he.state ▸ by decide) hn rfl rfl
  | read he | attached he => exact .of_resting (code := stSuccess) rfl (by decide) he.waiting h.retry h.cfgIdx
  | attach _ hn =>
    have hlt : s.regs.cfgIdx.toNat < s.cfg.nCfg := lt_of_le_of_ne h.cfgIdx hn
    exact ⟨h.stateCode, h.waiting, h.retryPolling, h.retry,
      (counter_succ_toNat hlt (nCfg_le_of_legal hl)).trans_le hlt⟩

/-! ### The latched window -/

theorem sampledBase_lt (s : State) : sampledBase s < 2 ^ s.cfg.aw := Nat.mod_lt _ (Nat.two_pow_pos _)

theorem sampledLen_lt (s : State) : sampledLen s < 2 ^ (s.cfg.aw + 1) := Nat.mod_lt _ (Nat.two_pow_pos _)

/-- In a terminal state or IDLE the registers have their widths and no more is asked of them. -/
theorem WindowInv.of_resting (hs : t.regs.state = code) (hn : ¬ Working code) (hb : t.regs.lBase < 2 ^ t.cfg.aw)
    (hl : t.regs.lLen < 2 ^ (t.cfg.aw + 1)) : WindowInv t where
  baseWidth := hb
  lenWidth := hl
  acquiring h := absurd (.inl (hs ▸ h)) hn
  attaching h := absurd (.inr (hs ▸ h)) hn

theorem WindowInv.of_acquiring (hs : t.regs.state = code) (ha : Acquiring code) (hb : t.regs.lBase < 2 ^ t.cfg.aw)
    (hl : t.regs.lLen < 2 ^ (t.cfg.aw + 1)) (hw : LatchedWindow t (acquireOffs t.cfg)) : WindowInv t where
  baseWidth := hb
  lenWidth := hl
  acquiring _ := hw
  attaching h := absurd (hs ▸ h) ha.ne_init

theorem WindowInv.of_attaching (hs : t.regs.state = stInit) (hb : t.regs.lBase < 2 ^ t.cfg.aw)
    (hl : t.regs.lLen < 2 ^ (t.cfg.aw + 1)) (hw : LatchedWindow t (initOffs t.cfg)) : WindowInv t where
  baseWidth := hb
  lenWidth := hl
  acquiring h := absurd hs h.ne_init
  attaching _ := hw

theorem StepCase.window (h : WindowInv s) (hu : StepCase s u) : WindowInv u := by
  have hb := sampledBase_lt s
  have hl := sampledLen_lt s
  cases hu with
  | stand | expire | notReady | notDrained | attach => exact ⟨h.baseWidth, h.lenWidth, h.acquiring, h.attaching⟩
  | reset => exact .of_resting (code := stIdle) rfl (by decide) (Nat.two_pow_pos _) (Nat.two_pow_pos _)
  | start _ _ _ hw => exact .of_acquiring (code := stWaitReadyPre) rfl (by decide) hb hl hw.2
  | init _ _ _ hw => exact .of_attaching rfl hb hl hw.2
  | startFault | initFault => exact .of_resting (code := stFault) rfl (by decide) hb hl
  | ack => exact .of_resting (code := stIdle) rfl (by decide) h.baseWidth h.lenWidth
  | readyTimeout | drainTimeout => exact .of_resting (code := stTimeout) rfl (by decide) h.baseWidth h.lenWidth
  | read | attached => exact .of_resting (code := stSuccess) rfl (by decide) h.baseWidth h.lenWidth
  | ready hp he =>
    exact .of_acquiring rfl hp.acquiring_next h.baseWidth h.lenWidth (h.acquiring (he.acquiring (.inl hp.polling)))
  | drained he =>
    exact .of_acquiring (code := stTrigger) rfl (by decide) h.baseWidth h.lenWidth (h.acquiring (he.acquiring (by decide)))
  | trigger he =>
    exact .of_acquiring (code := stWaitReadyPost) rfl (by decide) h.baseWidth h.lenWidth
      (h.acquiring (he.acquiring (by decide)))

/-! ### The result registers -/

/-- OUT_BUF has 32 bytes and is zero from OUT_LEN on (10_state.md R35). -/
structure BufferInv (len : BitVec 6) (buf : List Byte) : Prop where
  length : buf.length = outBufBytes
  bound : len.toNat ≤ outBufBytes
  zero : ∀ i, len.toNat ≤ i → i < outBufBytes → buf[i]? = some 0

/-- OUTCOME and STAGE go with STATE (R35); in IDLE they are those of the last operation. -/
abbrev OutcomeFits (code : StateCode) (oc : ResultCode) (stage : Option Stage) : Prop :=
  (Working code → oc = .none) ∧ (code = stSuccess → oc = .success) ∧ (code = stTimeout → oc = .timeout) ∧
    (code = stFault → oc = .fault) ∧ (stage ≠ none ↔ oc = .timeout)

theorem bufferInv_truncBuf (full : List Byte) (cap : Half) :
    BufferInv (BitVec.ofNat 6 (truncLen full cap)) (truncBuf full cap) where
  length := truncBuf_length full cap
  bound := (truncLen_toNat full cap).trans_le (truncLen_le_bytes full cap)
  zero i h hi := truncBuf_zero full cap i ((truncLen_toNat full cap).ge.trans h) hi

theorem bufferInv_zero : BufferInv 0 (List.replicate outBufBytes 0) where
  length := List.length_replicate
  bound := Nat.zero_le _
  zero i _ hi := by rw [List.getElem?_replicate, if_pos hi]

theorem outcomeFits_timeout (st : Stage) : OutcomeFits stTimeout .timeout (some st) := by cases st <;> decide

theorem outcomeFits_working (h : Working code) : OutcomeFits code .none none := by revert code; decide

theorem ResultInv.buffer (h : ResultInv s) : BufferInv s.regs.outLen s.regs.outBuf :=
  ⟨h.bufLength, h.lenBound, h.bufZero⟩

theorem ResultInv.stage_none (h : ResultInv s) (ho : s.regs.outcome ≠ .timeout) : s.regs.stage = none :=
  not_not.mp (mt h.stage.mp ho)

/-- In a working state nothing has been reported yet. -/
theorem ResultInv.stage_none_of_working (h : ResultInv s) (hs : Working s.regs.state) : s.regs.stage = none :=
  h.stage_none (by rw [h.working hs]; decide)

/-- STATE, OUTCOME and STAGE given by name, and the two output registers. -/
theorem ResultInv.of_outcome {stage : Option Stage} (hs : t.regs.state = code) (ho : t.regs.outcome = oc)
    (hst : t.regs.stage = stage) (hf : OutcomeFits code oc stage) (hb : BufferInv t.regs.outLen t.regs.outBuf) :
    ResultInv t := by
  subst hs ho hst
  obtain ⟨hwork, hsucc, htime, hfault, hstage⟩ := hf
  exact ⟨hwork, hsucc, htime, hfault, hstage, hb.length, hb.bound, hb.zero⟩

/-- From one working state to another the result registers stay as START or INIT cleared them. -/
theorem ResultInv.of_working (h : ResultInv s) (hs : Working s.regs.state) (ht : t.regs.state = code)
    (hcode : Working code) (ho : t.regs.outcome = s.regs.outcome) (hst : t.regs.stage = s.regs.stage)
    (hb : BufferInv t.regs.outLen t.regs.outBuf) : ResultInv t :=
  .of_outcome ht (ho.trans (h.working hs)) (hst.trans (h.stage_none_of_working hs)) (outcomeFits_working hcode) hb

theorem StepCase.result (h : ResultInv s) (hu : StepCase s u) : ResultInv u := by
  cases hu with
  | stand | expire =>
    exact ⟨h.working, h.success, h.timeout, h.fault, h.stage, h.bufLength, h.lenBound, h.bufZero⟩
  | reset => exact .of_outcome (code := stIdle) (oc := .none) (stage := none) rfl rfl rfl (by decide) bufferInv_zero
  | start => exact .of_outcome rfl rfl rfl (outcomeFits_working (code := stWaitReadyPre) (by decide)) bufferInv_zero
  | init => exact .of_outcome rfl rfl rfl (outcomeFits_working (code := stInit) (by decide)) bufferInv_zero
  | startFault | initFault =>
    exact .of_outcome (code := stFault) (oc := .fault) (stage := none) rfl rfl rfl (by decide) (bufferInv_truncBuf [] _)
  | ack =>
    have hf : OutcomeFits stIdle s.regs.outcome s.regs.stage := by
      refine ⟨?_, ?_, ?_, ?_, h.stage⟩ <;> exact fun e => absurd e (by decide)
    exact .of_outcome rfl rfl rfl hf h.buffer
  | readyTimeout | drainTimeout =>
    exact .of_outcome rfl rfl rfl (outcomeFits_timeout _) (bufferInv_truncBuf _ _)
  | ready hp he =>
    exact h.of_working (.inl (he.acquiring (.inl hp.polling))) rfl (.inl hp.acquiring_next) rfl rfl h.buffer
  | notReady hp he =>
    have hs : Working s.regs.state := .inl (he.acquiring (.inl hp.polling))
    exact h.of_working hs rfl hs rfl rfl h.buffer
  | drained he =>
    exact h.of_working (code := stTrigger) (.inl (he.acquiring (by decide))) rfl (by decide) rfl rfl h.buffer
  | notDrained he =>
    have hs : Working s.regs.state := .inl (he.acquiring (by decide))
    exact h.of_working hs rfl hs rfl rfl h.buffer
  | trigger he =>
    exact h.of_working (code := stWaitReadyPost) (.inl (he.acquiring (by decide))) rfl (by decide) rfl rfl h.buffer
  | attach he => exact h.of_working (.inr he.state) rfl (.inr he.state) rfl rfl h.buffer
  | read he =>
    have hst := h.stage_none_of_working (.inl (he.acquiring (by decide)))
    exact .of_outcome (code := stSuccess) (oc := .success) rfl rfl hst (by decide) (bufferInv_truncBuf _ _)
  | attached he =>
    have hst := h.stage_none_of_working (.inr he.state)
    exact .of_outcome (code := stSuccess) (oc := .success) rfl rfl hst (by decide) h.buffer

/-! ### The scaler registers -/

/-- The working registers cleared. -/
theorem ScalerInv.of_zero (hs : t.regs.sample = 0) (hr : t.regs.raw = 0) (hsc : t.regs.scaled = 0)
    (hv : t.regs.volt = 0) : ScalerInv t where
  raw := by
    rw [hs, hr]
    exact (show ∀ mode : BitVec 2, 0 = extract mode 0 by decide) _
  scaled := by simp [hr, hsc]
  volt := by simp [hsc, hv]
  fits := by simp [hsc]

/-- The registers READ leaves (41_acquisition_fsm.md R108) hold the exact numbers: nothing overflows. -/
theorem ScalerInv.of_deliver (hl : CfgLegal c) (w : Half) (r : Regs) (hc : t.cfg = c) (hr : t.regs = deliver c w r) :
    ScalerInv t := by
  subst hc
  have hscaled : (BitVec.ofNat 64 (scale t.cfg.p (extract t.cfg.extractMode w).toNat)).toNat =
      scale t.cfg.p (extract t.cfg.extractMode w).toNat := by
    rw [BitVec.toNat_ofNat]
    exact Nat.mod_eq_of_lt (scale_lt_long hl w)
  constructor <;> rw [hr]
  · rfl
  · exact hscaled
  · exact BitVec.toNat_ofNat _ _ |>.trans
      (Nat.mod_eq_of_lt (lt_of_le_of_lt (Nat.div_le_self _ _) (BitVec.isLt _)))
  · exact hscaled.trans_lt (Nat.lt_of_le_sub_one (Nat.two_pow_pos _) (scale_fits hl w))

theorem StepCase.scaler (hl : CfgLegal s.cfg) (h : ScalerInv s) (hu : StepCase s u) : ScalerInv u := by
  cases hu with
  | reset | start | startFault | init | initFault => exact .of_zero rfl rfl rfl rfl
  | read => exact .of_deliver hl _ _ rfl rfl
  | stand | expire | ack | ready | notReady | readyTimeout | drained | notDrained | drainTimeout | trigger | attach
  | attached => exact ⟨h.raw, h.scaled, h.volt, h.fits⟩

/-! ### The invariant -/

theorem StepCase.inv (hl : CfgLegal s.cfg) (h : Inv s) (hu : StepCase s u) : Inv u :=
  ⟨hu.sequencing hl h.sequencing, hu.window h.window, hu.result h.result, hu.scaler hl h.scaler⟩

/-- The invariant does not speak of the ports. -/
theorem Inv.setPorts (h : Inv s) (p : Ports) (f : List Ports) : Inv (s.setPorts p f) := by
  obtain ⟨hseq, hwin, hres, hsc⟩ := h
  exact ⟨⟨hseq.stateCode, hseq.waiting, hseq.retryPolling, hseq.retry, hseq.cfgIdx⟩,
    ⟨hwin.baseWidth, hwin.lenWidth, hwin.acquiring, hwin.attaching⟩,
    ⟨hres.working, hres.success, hres.timeout, hres.fault, hres.stage, hres.bufLength, hres.lenBound, hres.bufZero⟩,
    ⟨hsc.raw, hsc.scaled, hsc.volt, hsc.fits⟩⟩

theorem Inv.advance (h : Inv s) : Inv (advance s) := by
  unfold Machine.advance
  split
  · exact h.setPorts _ _
  · exact h.setPorts _ _

/-! ### Between two operations -/

/-- What the host reads as the outcome of an operation (10_state.md R34), and the accesses made. -/
structure SameResults (s t : State) : Prop where
  outcome : t.regs.outcome = s.regs.outcome
  stage : t.regs.stage = s.regs.stage
  value : t.regs.value = s.regs.value
  outLen : t.regs.outLen = s.regs.outLen
  outBuf : t.regs.outBuf = s.regs.outBuf
  trace : t.trace = s.trace

/-- In a resting state the engine writes nothing; of the accepted commands ACK moves STATE alone. -/
theorem StepCase.sameResults (hu : StepCase s u) (hn : ¬ Working s.regs.state) (hr : s.ports.rst = false)
    (hc : s.regs.state = stIdle → s.ports.cmd ≠ some 1 ∧ s.ports.cmd ≠ some 2) : SameResults s u := by
  have engine {code : StateCode} (he : EngineStep s code) (hw : Working code) : SameResults s u :=
    absurd (he.state ▸ hw) hn
  cases hu with
  | stand | expire | ack => exact ⟨rfl, rfl, rfl, rfl, rfl, rfl⟩
  | reset h => rw [hr] at h; cases h
  | start _ h hs | startFault _ h hs => exact absurd h (hc hs).1
  | init _ h hs | initFault _ h hs => exact absurd h (hc hs).2
  | ready hp he | notReady hp he | readyTimeout hp he => exact engine he (.inl (.inl hp.polling))
  | drained he | notDrained he | drainTimeout he | trigger he | read he | attach he | attached he =>
    exact engine he (by decide)

/-! ### The status bits no rule reads (10_state.md R31) -/

/-- Two bytes that agree on two masks together agree on each. -/
theorem and_eq_of_and_or_eq {b b' m n : Byte} (h : b &&& (m ||| n) = b' &&& (m ||| n)) :
    b &&& m = b' &&& m ∧ b &&& n = b' &&& n := by
  have hm : (m ||| n) &&& m = m := by ext i; simp +contextual
  have hn : (m ||| n) &&& n = n := by ext i; simp +contextual
  constructor
  · rw [← hm, ← BitVec.and_assoc, h, BitVec.and_assoc]
  · rw [← hn, ← BitVec.and_assoc, h, BitVec.and_assoc]

theorem isReady_congr {b b' : Byte} (h : b &&& c.readyMask = b' &&& c.readyMask) : isReady c b' = isReady c b := by
  rw [isReady, isReady, bitSet, bitSet, h]

theorem isNotEmpty_congr {b b' : Byte} (h : b &&& c.neMask = b' &&& c.neMask) :
    isNotEmpty c b' = isNotEmpty c b := by
  rw [isNotEmpty, isNotEmpty, bitSet, bitSet, h]

/-- A failed check does not read the STATUS latch. -/
theorem pollFailed_status (r : Regs) (b : Byte) :
    pollFailed c st { r with status := b } = { pollFailed c st r with status := b } := by
  unfold pollFailed
  split <;> rfl

/-- The state with the next status answer replaced. -/
def State.answering (s : State) (b : Byte) (rest : List Byte) : State :=
  { s with dev := { s.dev with status := b :: rest } }

/-- The two states a poll leaves differ in the STATUS latch only, and in the byte the trace records. -/
structure SamePoll (b : Byte) (t t' : State) : Prop where
  regs : t'.regs = { t.regs with status := b }
  dev : t'.dev = t.dev

variable {b b' : Byte} {rest : List Byte}

theorem readyPoll_answering (h : isReady s.cfg b' = isReady s.cfg b) :
    SamePoll b' (readyPoll st next (s.answering b rest)) (readyPoll st next (s.answering b' rest)) := by
  cases hb : isReady s.cfg b with
  | true =>
    rw [readyPoll_passed (s := s.answering b rest) hb, readyPoll_passed (s := s.answering b' rest) (h.trans hb)]
    exact ⟨rfl, rfl⟩
  | false =>
    rw [readyPoll_failed (s := s.answering b rest) hb, readyPoll_failed (s := s.answering b' rest) (h.trans hb)]
    constructor
    · simp only [State.setRegs_regs, pollFailed_status]
      rfl
    · rfl

theorem drainPoll_answering (h : isNotEmpty s.cfg b' = isNotEmpty s.cfg b) :
    SamePoll b' (drainPoll (s.answering b rest)) (drainPoll (s.answering b' rest)) := by
  cases hb : isNotEmpty s.cfg b with
  | false =>
    rw [drainPoll_passed (s := s.answering b rest) hb, drainPoll_passed (s := s.answering b' rest) (h.trans hb)]
    exact ⟨rfl, rfl⟩
  | true =>
    rw [drainPoll_failed (s := s.answering b rest) hb, drainPoll_failed (s := s.answering b' rest) (h.trans hb)]
    constructor
    · simp only [State.setRegs_regs, pollFailed_status]
      rfl
    · rfl

theorem State.answering_of_queued (h : s.dev.status = b :: rest) : s.answering b rest = s := by
  rw [State.answering, ← h]

/-- DRAIN where its data read would complete (20_memory.md R56). -/
theorem execDrain_of_not_stuck (hl : CfgLegal s.cfg) (hs : s.regs.state = stDrain) (hw : s.regs.waiting = false)
    (hd : dataReadStuck s = false) : execDrain s = .next (drainPoll s) := by
  rw [execDrain, engineOp_enabled hl hs hw, hd]
  rfl

/-! ### The steps that execute no operation -/

theorem fetch_of_suspended (hr : s.ports.rst = false) (hc : s.ports.cmd = none) (hw : s.regs.waiting = true)
    (ht : s.ports.tick = false) : fetch s = .ok none := by
  simp only [fetch, hr, hc, hw, ht]
  rfl

theorem fetch_of_reserved (hr : s.ports.rst = false) (hc : s.ports.cmd = none) (hw : s.regs.waiting = false)
    (hs : 0xA ≤ s.regs.state.toNat) : fetch s = .error .reservedState := by
  have hd : decode ⟨.state, s.regs.state, []⟩ = .error .reservedState :=
    (show ∀ code : StateCode, 0xA ≤ code.toNat → decode ⟨.state, code, []⟩ = .error .reservedState by decide) _ hs
  simp only [fetch, hr, hc, hw, hd]
  rfl

end

/-! ### The statements -/

/-- Settles O47: each part of the invariant over the cases of a step; the ports that move on are no part of it. -/
theorem stepKeepsInvariant : Obligations.StepKeepsInvariant := by
  intro s t h hstep
  obtain ⟨hl, u, rfl, hu⟩ := step_cases hstep
  exact (hu.inv hl h).advance

/-- Settles O30: both predicates read the masked byte only, and a failed check does not read the latch. -/
theorem otherStatusBitsIgnored : Obligations.OtherStatusBitsIgnored := by
  intro s b b' rest hl hb hq hd hw p hp hs
  obtain ⟨hready, hne⟩ := and_eq_of_and_or_eq hb
  rw [← State.answering_of_queued hq]
  have ready {st : Stage} {next : StateCode} :
      SamePoll b' (readyPoll st next (s.answering b rest)) (readyPoll st next (s.answering b' rest)) :=
    readyPoll_answering (isReady_congr hready)
  simp only [List.mem_cons, List.not_mem_nil, or_false] at hp
  obtain rfl | rfl | rfl := hp
  · exact ⟨_, _, engineOp_enabled hl hs hw, engineOp_enabled hl hs hw, ready.regs, ready.dev⟩
  · have hpoll := drainPoll_answering (rest := rest) (isNotEmpty_congr hne)
    exact ⟨_, _, execDrain_of_not_stuck hl hs hw hd, execDrain_of_not_stuck hl hs hw hd, hpoll.regs, hpoll.dev⟩
  · exact ⟨_, _, engineOp_enabled hl hs hw, engineOp_enabled hl hs hw, ready.regs, ready.dev⟩

/-- Settles O51: of the cases of a step only those that write no result register are left. -/
theorem resultsHoldUntilNextOperation : Obligations.ResultsHoldUntilNextOperation := by
  intro s t hstep hs hr hc
  have hn : ¬ Working s.regs.state :=
    (show ∀ code, Terminal code ∨ code = stIdle → ¬ Working code by decide) _ hs
  obtain ⟨-, u, rfl, hu⟩ := step_cases hstep
  obtain ⟨houtcome, hstage, hvalue, hlen, hbuf, htrace⟩ := hu.sameResults hn hr hc
  rw [advance_regs, advance_trace]
  exact ⟨houtcome, hstage, hvalue, hlen, hbuf, htrace⟩

/-- Settles O54: the invariant gives OUTCOME from STATE, and STAGE from OUTCOME. -/
theorem doneShowsTheOutcome : Obligations.DoneShowsTheOutcome := by
  intro s h
  obtain ⟨-, -, hres, -⟩ := h
  refine ⟨fun hs => ?_, fun hs => ?_, fun hs => ?_⟩
  · rw [acquisitionOutcome, hres.success hs]
  · have ho := hres.timeout hs
    obtain ⟨st, hst⟩ := Option.ne_none_iff_exists'.mp (hres.stage.mpr ho)
    exact ⟨st, hst, by rw [acquisitionOutcome, ho, hst]⟩
  · have ho := hres.fault hs
    exact ⟨hres.stage_none (by rw [ho]; decide), by rw [acquisitionOutcome, ho]⟩

/-- Settles O6: the suspended engine selects nothing, a reserved code selects no operation. -/
theorem stepsWithoutAnOperation : Obligations.StepsWithoutAnOperation := by
  intro s hl hr hc
  constructor
  · intro hw ht
    refine ⟨advance s, ?_, advance_regs s, advance_trace s, advance_dev s, advance_cfg s, advance_ret s⟩
    rw [step, fetch_of_suspended hr hc hw ht, guardLegal_of_legal hl]
    rfl
  · intro hw hs
    rw [step, fetch_of_reserved hr hc hw hs]
    exact guardLegal_of_legal hl

/-- Settles O8: the reset state is given field by field. -/
theorem resetValues : Obligations.ResetValues := ⟨rfl, rfl, rfl, rfl⟩

/-- Settles O46: IDLE with every working and result register cleared, under CFG_REF. -/
theorem invariantHoldsAtReset : Obligations.InvariantHoldsAtReset where
  sequencing := .of_retry_zero (code := stIdle) rfl (by decide) (by decide) rfl rfl (by decide)
  window := .of_resting (code := stIdle) rfl (by decide) (by decide) (by decide)
  result := .of_outcome (code := stIdle) (oc := .none) (stage := none) rfl rfl rfl (by decide) bufferInv_zero
  scaler := .of_zero rfl rfl rfl rfl

end Sys2Proof.Machine

/-! # The access trace (20_memory.md)

Where a step's accesses lie (O50), the stuck data read (O23), and the trace of one acquisition (O57, O58). -/

namespace Sys2Proof.Machine

section
variable {s t u : State}

/-! ### The stuck data read (20_memory.md R56) -/

theorem dataReadStuck_of_odd (hb : s.cfg.busAllowsMisaligned = false)
    (ho : (s.regs.lBase + s.cfg.offData) % 2 = 1) : dataReadStuck s = true := by
  rw [← Bool.not_eq_false, dataReadStuck_eq_false, hb, ho]
  decide

/-! ### Every access lies in the latched window (R53) -/

/-- The access lies in the latched window and in the address space. -/
abbrev SafeAccess (s : State) (a : Access) : Prop := InWindow s a ∧ a.addr + a.op.size ≤ 2 ^ s.cfg.aw

/-- A window WindowOK has accepted holds every access to a register of its list (R50, R51). -/
theorem safeAccess_of_mem {offs : List (Nat × Nat)} {off : Nat} {a : Access} (hw : LatchedWindow s offs)
    (hm : (off, a.op.size) ∈ offs) (ha : a.addr = s.regs.lBase + off) : SafeAccess s a := by
  obtain ⟨-, -, htop, hcont⟩ := hw
  have hfit : off + a.op.size ≤ s.regs.lLen := hcont _ hm
  simp only [SafeAccess, InWindow, ha]
  omega

theorem statusAccess_safe (hw : LatchedWindow s (acquireOffs s.cfg)) : SafeAccess s (statusAccess s) :=
  safeAccess_of_mem hw (.head _) rfl

theorem dataAccess_safe (hw : LatchedWindow s (acquireOffs s.cfg)) : SafeAccess s (dataAccess s) :=
  safeAccess_of_mem hw (.tail _ (.head _)) rfl

theorem triggerAccess_safe (hw : LatchedWindow s (acquireOffs s.cfg)) : SafeAccess s (triggerAccess s) :=
  safeAccess_of_mem hw (.tail _ (.tail _ (.head _))) rfl

theorem configAccess_safe {e : CfgEntry} (hw : LatchedWindow s (initOffs s.cfg)) (he : e ∈ s.cfg.cfgTable) :
    SafeAccess s (configAccess s e.offset e.byte) :=
  safeAccess_of_mem hw (List.mem_map_of_mem he) rfl

/-- From `s` to `u` the trace grows by safe accesses, and only where the engine works. -/
def GrowsSafely (s u : State) : Prop :=
  ∃ new, u.trace = s.trace ++ new ∧ (∀ a ∈ new, SafeAccess s a) ∧
    (new ≠ [] → Working s.regs.state ∧ s.regs.waiting = false)

theorem GrowsSafely.of_trace_eq (h : u.trace = s.trace) : GrowsSafely s u :=
  ⟨[], by rw [h, List.append_nil], nofun, fun hn => absurd rfl hn⟩

theorem GrowsSafely.of_engine {code : StateCode} {new : List Access} (he : EngineStep s code) (hc : Working code)
    (ht : u.trace = s.trace ++ new) (hnew : ∀ a ∈ new, SafeAccess s a) : GrowsSafely s u :=
  ⟨new, ht, hnew, fun _ => ⟨he.state ▸ hc, he.waiting⟩⟩

theorem GrowsSafely.of_access {code : StateCode} {a : Access} (he : EngineStep s code) (hc : Working code)
    (ht : u.trace = s.trace ++ [a]) (ha : SafeAccess s a) : GrowsSafely s u :=
  .of_engine he hc ht (List.forall_mem_singleton.mpr ha)

theorem StepCase.growsSafely (h : WindowInv s) (hu : StepCase s u) : GrowsSafely s u := by
  cases hu with
  | stand | reset | expire | start | startFault | init | initFault | ack | attached => exact .of_trace_eq rfl
  | ready hp he | notReady hp he | readyTimeout hp he =>
    have hw := h.acquiring (he.acquiring (.inl hp.polling))
    exact .of_access he (.inl (.inl hp.polling)) rfl (statusAccess_safe hw)
  | drained he =>
    exact .of_access he (by decide) rfl (statusAccess_safe (h.acquiring (he.acquiring (by decide))))
  | notDrained he | drainTimeout he =>
    have hw := h.acquiring (he.acquiring (by decide))
    have hboth : ∀ a ∈ [statusAccess s, dataAccess (readStatus s)], SafeAccess s a :=
      List.forall_mem_cons.mpr ⟨statusAccess_safe hw,
        List.forall_mem_singleton.mpr (dataAccess_safe (s := readStatus s) hw)⟩
    exact .of_engine he (by decide) (List.append_assoc ..) hboth
  | trigger he =>
    exact .of_access he (by decide) rfl (triggerAccess_safe (h.acquiring (he.acquiring (by decide))))
  | read he =>
    exact .of_access he (by decide) rfl (dataAccess_safe (h.acquiring (he.acquiring (by decide))))
  | attach he _ hx =>
    exact .of_access he (by decide) rfl (configAccess_safe (h.attaching he.state) (List.mem_of_getElem? hx))

end

/-! ### The phases of an acquisition and what each has accessed (R66)

From START to DONE an acquisition passes through the phases below. The invariant of a run names the phase and says which
operations the trace has gained in it; it is R66, said of every moment instead of the end. -/

/-- Where an acquisition stands, from the accepted START on. -/
inductive Phase where
  | waitReadyPre
  | drain
  | trigger
  | waitReadyPost
  | read
  | success
  | timeout (st : Stage)

/-- STATE in a phase. -/
def Phase.code : Phase → StateCode
  | .waitReadyPre => stWaitReadyPre
  | .drain => stDrain
  | .trigger => stTrigger
  | .waitReadyPost => stWaitReadyPost
  | .read => stRead
  | .success => stSuccess
  | .timeout _ => stTimeout

/-- STAGE in a phase. -/
def Phase.stage : Phase → Option Stage
  | .timeout st => some st
  | _ => none

/-- The phase a STATE code names; a timeout is named by STAGE. -/
def Phase.ofCode (code : StateCode) : Phase :=
  match code.toNat with
  | 1 => .waitReadyPre
  | 2 => .drain
  | 3 => .trigger
  | 4 => .waitReadyPost
  | 5 => .read
  | _ => .success

theorem Phase.eq_ofCode {ph : Phase} {code : StateCode} (h : ph.code = code) (hn : code ≠ stTimeout) :
    ph = .ofCode code := by
  subst h
  cases ph with
  | timeout => exact absurd rfl hn
  | _ => rfl

theorem Phase.eq_of_stage {ph : Phase} {st : Stage} (h : ph.stage = some st) : ph = .timeout st := by
  cases ph <;> cases h
  rfl

/-- An acquisition stands neither in IDLE nor in INIT. -/
theorem Phase.code_ne (ph : Phase) : ph.code ≠ stIdle ∧ ph.code ≠ stInit := by
  cases ph with
  | timeout => exact (show stTimeout ≠ stIdle ∧ stTimeout ≠ stInit by decide)
  | _ => decide

/-- The accesses of n checks of READY. -/
def polls (n : Nat) : List BusOp := List.replicate n .rdStatus

/-- The accesses of n failed checks of NOT_EMPTY: each is followed by its discarding data read. -/
def drains (n : Nat) : List BusOp := (List.replicate n [BusOp.rdStatus, BusOp.rdData]).flatten

theorem polls_succ (n : Nat) : polls (n + 1) = polls n ++ [BusOp.rdStatus] := List.replicate_succ'

theorem drains_succ (n : Nat) : drains (n + 1) = drains n ++ [BusOp.rdStatus, BusOp.rdData] := by
  rw [drains, List.replicate_succ', List.flatten_append]
  rfl

/-- The accesses before the trigger write: at most b polls, fewer than b discards, and the passed check of NOT_EMPTY. -/
def BeforeTrigger (b : Nat) (ops : List BusOp) : Prop :=
  ∃ p ≤ b, ∃ d < b, ops = polls p ++ drains d ++ [BusOp.rdStatus]

/-- The accesses from START on with the trigger write made, and q polls after it. -/
def AfterTrigger (b q : Nat) (ops : List BusOp) : Prop :=
  ∃ before, BeforeTrigger b before ∧ ops = before ++ [BusOp.wrTrigger] ++ polls q

/-- The operations an acquisition has issued in a phase, with bound b and RETRY = n. -/
def PhaseTrace (b n : Nat) (ops : List BusOp) : Phase → Prop
  | .waitReadyPre => n < b ∧ ops = polls n
  | .drain => n < b ∧ ∃ p ≤ b, ops = polls p ++ drains n
  | .trigger => BeforeTrigger b ops
  | .waitReadyPost => n < b ∧ AfterTrigger b n ops
  | .read => ∃ q ≤ b, AfterTrigger b q ops
  | .success => ∃ q ≤ b, ∃ before, AfterTrigger b q before ∧ ops = before ++ [BusOp.rdData]
  | .timeout .waitingForDevice => ops = polls b
  | .timeout .discardingData => ∃ p ≤ b, ∃ d, d + 1 = b ∧ ops = polls p ++ drains (d + 1)
  | .timeout .waitingForData => AfterTrigger b b ops

section
variable {b n m q : Nat} {ops : List BusOp} {ph : Phase} {code next : StateCode} {st : Stage}

theorem PhaseTrace.retry_lt (h : PhaseTrace b n ops ph) (hp : Polling ph.code) : n < b := by
  cases ph with
  | waitReadyPre | drain | waitReadyPost =>
    obtain ⟨hn, -⟩ := h
    exact hn
  | trigger | read | success => exact absurd hp (by decide)
  | timeout => exact absurd hp (show ¬ Polling stTimeout by decide)

theorem AfterTrigger.poll (h : AfterTrigger b q ops) : AfterTrigger b (q + 1) (ops ++ [BusOp.rdStatus]) := by
  obtain ⟨before, hb, rfl⟩ := h
  exact ⟨before, hb, by rw [polls_succ, List.append_assoc _ (polls q)]⟩

/-! ### The checks of READY, before and after the trigger -/

theorem ReadyPoll.trace_passed (hp : ReadyPoll code st next) (hc : ph.code = code) (h : PhaseTrace b n ops ph) :
    ∃ ph' : Phase, ph'.code = next ∧ ph'.stage = ph.stage ∧ PhaseTrace b 0 (ops ++ [BusOp.rdStatus]) ph' := by
  cases hp with
  | pre =>
    obtain rfl : ph = .waitReadyPre := Phase.eq_ofCode hc (by decide)
    obtain ⟨hn, rfl⟩ := h
    exact ⟨.drain, rfl, rfl, by omega, n + 1, hn, by rw [← polls_succ]; exact (List.append_nil _).symm⟩
  | post =>
    obtain rfl : ph = .waitReadyPost := Phase.eq_ofCode hc (by decide)
    obtain ⟨hn, h⟩ := h
    exact ⟨.read, rfl, rfl, n + 1, hn, h.poll⟩

theorem ReadyPoll.trace_failed (hp : ReadyPoll code st next) (hc : ph.code = code) (h : PhaseTrace b n ops ph)
    (hn : n + 1 ≠ b) : PhaseTrace b (n + 1) (ops ++ [BusOp.rdStatus]) ph := by
  have hlt : n + 1 < b := lt_of_le_of_ne (h.retry_lt (hc ▸ hp.polling)) hn
  cases hp with
  | pre =>
    obtain rfl : ph = .waitReadyPre := Phase.eq_ofCode hc (by decide)
    obtain ⟨-, rfl⟩ := h
    exact ⟨hlt, (polls_succ n).symm⟩
  | post =>
    obtain rfl : ph = .waitReadyPost := Phase.eq_ofCode hc (by decide)
    exact ⟨hlt, h.2.poll⟩

theorem ReadyPoll.trace_exhausted (hp : ReadyPoll code st next) (hc : ph.code = code) (h : PhaseTrace b n ops ph)
    (hn : n + 1 = b) : PhaseTrace b m (ops ++ [BusOp.rdStatus]) (.timeout st) := by
  subst hn
  cases hp with
  | pre =>
    obtain rfl : ph = .waitReadyPre := Phase.eq_ofCode hc (by decide)
    obtain ⟨-, rfl⟩ := h
    exact (polls_succ n).symm
  | post =>
    obtain rfl : ph = .waitReadyPost := Phase.eq_ofCode hc (by decide)
    exact h.2.poll

/-! ### The checks of NOT_EMPTY -/

theorem PhaseTrace.drain_passed (h : PhaseTrace b n ops .drain) : PhaseTrace b m (ops ++ [BusOp.rdStatus]) .trigger := by
  obtain ⟨hn, p, hp, rfl⟩ := h
  exact ⟨p, hp, n, hn, rfl⟩

/-- One more discard, below BOUND or at it. -/
theorem PhaseTrace.drain_discard (h : PhaseTrace b n ops .drain) :
    ∃ p ≤ b, ops ++ [BusOp.rdStatus, BusOp.rdData] = polls p ++ drains (n + 1) := by
  obtain ⟨-, p, hp, rfl⟩ := h
  exact ⟨p, hp, by rw [drains_succ, List.append_assoc]⟩

/-! ### The bounds of R66 in every phase -/

/-- At most `s` status reads and `d` data reads, exactly `t` trigger writes, no configuration write. -/
structure Issued (ops : List BusOp) (s d t : Nat) : Prop where
  status : ops.count .rdStatus ≤ s
  data : ops.count .rdData ≤ d
  trigger : ops.count .wrTrigger = t
  config : ops.count .wrConfig = 0

theorem issued_polls (n : Nat) : Issued (polls n) n 0 0 := by
  constructor <;> simp [polls, List.count_replicate]

theorem issued_drains (n : Nat) : Issued (drains n) n n 0 := by
  constructor <;> simp [drains, List.count_flatten]

theorem Issued.append {ops ops' : List BusOp} {s d t s' d' t' : Nat} (h : Issued ops s d t) (h' : Issued ops' s' d' t') :
    Issued (ops ++ ops') (s + s') (d + d') (t + t') := by
  obtain ⟨hs, hd, ht, hc⟩ := h
  obtain ⟨hs', hd', ht', hc'⟩ := h'
  constructor <;> rw [List.count_append] <;> omega

theorem Issued.mono {s d t s' d' : Nat} (h : Issued ops s d t) (hs : s ≤ s') (hd : d ≤ d') : Issued ops s' d' t :=
  ⟨h.status.trans hs, h.data.trans hd, h.trigger, h.config⟩

theorem BeforeTrigger.issued (h : BeforeTrigger b ops) : Issued ops (2 * b) b 0 := by
  obtain ⟨p, hp, d, hd, rfl⟩ := h
  have hcheck : Issued [BusOp.rdStatus] 1 0 0 := by constructor <;> decide
  exact (((issued_polls p).append (issued_drains d)).append hcheck).mono (by omega) (by omega)

theorem AfterTrigger.issued (h : AfterTrigger b q ops) : Issued ops (2 * b + q) b 1 := by
  obtain ⟨before, hb, rfl⟩ := h
  have htrig : Issued [BusOp.wrTrigger] 0 0 1 := by constructor <;> decide
  exact (hb.issued.append htrig).append (issued_polls q)

/-- A successful acquisition ends with the data read of READ. -/
theorem AfterTrigger.issued_read (h : AfterTrigger b q ops) : Issued (ops ++ [BusOp.rdData]) (2 * b + q) (b + 1) 1 := by
  have hread : Issued [BusOp.rdData] 0 1 0 := by constructor <;> decide
  exact h.issued.append hread

/-- At every moment the four bounds hold, with at most one trigger write. -/
theorem PhaseTrace.issued (h : PhaseTrace b n ops ph) : ∃ t ≤ 1, Issued ops (3 * b) (b + 1) t := by
  match ph, h with
  | .waitReadyPre, ⟨hn, h⟩ => exact ⟨0, Nat.zero_le _, h ▸ (issued_polls n).mono (by omega) (by omega)⟩
  | .drain, ⟨hn, p, hp, h⟩ =>
    exact ⟨0, Nat.zero_le _, h ▸ ((issued_polls p).append (issued_drains n)).mono (by omega) (by omega)⟩
  | .trigger, h => exact ⟨0, Nat.zero_le _, (BeforeTrigger.issued h).mono (by omega) (by omega)⟩
  | .waitReadyPost, ⟨hn, h⟩ => exact ⟨1, le_rfl, h.issued.mono (by omega) (by omega)⟩
  | .read, ⟨q, hq, h⟩ => exact ⟨1, le_rfl, h.issued.mono (by omega) (by omega)⟩
  | .success, ⟨q, hq, before, hb, h⟩ => exact ⟨1, le_rfl, h ▸ hb.issued_read.mono (by omega) (by omega)⟩
  | .timeout .waitingForDevice, h =>
    exact ⟨0, Nat.zero_le _, (show ops = polls b from h) ▸ (issued_polls b).mono (by omega) (by omega)⟩
  | .timeout .discardingData, ⟨p, hp, d, hd, h⟩ =>
    exact ⟨0, Nat.zero_le _, h ▸ ((issued_polls p).append (issued_drains (d + 1))).mono (by omega) (by omega)⟩
  | .timeout .waitingForData, h => exact ⟨1, le_rfl, (AfterTrigger.issued h).mono (by omega) (by omega)⟩

end

/-! ### An acquisition step by step -/

/-- The acquisition that found the trace `past` stands in phase `ph` and has made the accesses `new`. -/
structure AcquisitionAt (past : List Access) (ph : Phase) (new : List Access) (s : State) : Prop where
  state : s.regs.state = ph.code
  stage : s.regs.stage = ph.stage
  trace : s.trace = past ++ new
  ops : PhaseTrace s.cfg.bound s.regs.retry.toNat (new.map Access.op) ph

section
variable {s t u : State} {past new : List Access} {ph ph' : Phase} {code : StateCode}

theorem AcquisitionAt.code_eq (h : AcquisitionAt past ph new s) (he : EngineStep s code) : ph.code = code :=
  h.state.symm.trans he.state

/-- The engine executes the operation of the phase. -/
theorem AcquisitionAt.phase_eq (h : AcquisitionAt past ph new s) (he : EngineStep s code) (hn : code ≠ stTimeout) :
    ph = .ofCode code :=
  Phase.eq_ofCode (h.code_eq he) hn

/-- The step to another state appends `acc` to the trace. -/
theorem AcquisitionAt.append (h : AcquisitionAt past ph new s) {acc : List Access} (hs : u.regs.state = ph'.code)
    (hst : u.regs.stage = ph'.stage) (ht : u.trace = s.trace ++ acc)
    (ho : PhaseTrace u.cfg.bound u.regs.retry.toNat (new.map Access.op ++ acc.map Access.op) ph') :
    ∃ ph new, AcquisitionAt past ph new u :=
  ⟨ph', new ++ acc, hs, hst, by rw [ht, h.trace, List.append_assoc], by rwa [List.map_append]⟩

/-- A check of a polling state counts without wrapping. -/
theorem AcquisitionAt.retry_succ (h : AcquisitionAt past ph new s) (hl : CfgLegal s.cfg) (hp : Polling ph.code) :
    (s.regs.retry + 1).toNat = s.regs.retry.toNat + 1 :=
  counter_succ_toNat (h.ops.retry_lt hp) (bound_range_of_legal hl).2

/-- Without reset and ACK a step leads from a phase of the acquisition to a phase of it. -/
theorem StepCase.acquisition (hl : CfgLegal s.cfg) (hr : s.ports.rst = false) (hc : s.ports.cmd ≠ some 3)
    (h : AcquisitionAt past ph new s) (hu : StepCase s u) : ∃ ph new, AcquisitionAt past ph new u := by
  cases hu with
  | stand | expire => exact ⟨ph, new, h.state, h.stage, h.trace, h.ops⟩
  | reset hrst => rw [hr] at hrst; cases hrst
  | ack _ hcmd => exact absurd hcmd hc
  | start _ _ hs | startFault _ _ hs | init _ _ hs | initFault _ _ hs =>
    exact absurd (h.state.symm.trans hs) ph.code_ne.1
  | attach he | attached he => exact absurd (h.code_eq he) ph.code_ne.2
  | ready hp he =>
    obtain ⟨ph', hcode, hstage, ho⟩ := hp.trace_passed (h.code_eq he) h.ops
    exact h.append (acc := [statusAccess s]) hcode.symm (h.stage.trans hstage.symm) rfl ho
  | notReady hp he _ hn =>
    have hcode := h.code_eq he
    have hretry := h.retry_succ hl (hcode ▸ hp.polling)
    exact h.append (acc := [statusAccess s]) h.state h.stage rfl (hretry ▸ hp.trace_failed hcode h.ops hn)
  | readyTimeout hp he _ hn =>
    exact h.append (ph' := .timeout _) (acc := [statusAccess s]) rfl rfl rfl
      (hp.trace_exhausted (h.code_eq he) h.ops hn)
  | drained he =>
    obtain rfl : ph = .drain := h.phase_eq he (by decide)
    exact h.append (ph' := .trigger) (acc := [statusAccess s]) rfl h.stage rfl h.ops.drain_passed
  | notDrained he _ _ hn =>
    obtain rfl : ph = .drain := h.phase_eq he (by decide)
    have hlt := lt_of_le_of_ne (h.ops.retry_lt (by decide)) hn
    have hretry := h.retry_succ hl (by decide)
    exact h.append (acc := [statusAccess s, dataAccess (readStatus s)]) h.state h.stage (List.append_assoc ..)
      (hretry ▸ ⟨hlt, h.ops.drain_discard⟩)
  | drainTimeout he _ _ hn =>
    obtain rfl : ph = .drain := h.phase_eq he (by decide)
    obtain ⟨p, hp, ho⟩ := h.ops.drain_discard
    exact h.append (ph' := .timeout .discardingData) (acc := [statusAccess s, dataAccess (readStatus s)]) rfl rfl
      (List.append_assoc ..) ⟨p, hp, _, hn, ho⟩
  | trigger he =>
    obtain rfl : ph = .trigger := h.phase_eq he (by decide)
    exact h.append (ph' := .waitReadyPost) (acc := [triggerAccess s]) rfl h.stage rfl
      ⟨(bound_range_of_legal hl).1, _, h.ops, (List.append_nil _).symm⟩
  | read he =>
    obtain rfl : ph = .read := h.phase_eq he (by decide)
    obtain ⟨q, hq, ho⟩ := h.ops
    exact h.append (ph' := .success) (acc := [dataAccess s]) rfl h.stage rfl ⟨q, hq, _, ho, rfl⟩

/-! ### The run of an acquisition -/

theorem StepCase.ports_eq (hu : StepCase s u) : u.ports = s.ports ∧ u.future = s.future := by
  cases hu <;> exact ⟨rfl, rfl⟩

/-- The host's abstention lasts: the ports move on within the samples to come, and to a quiet environment after them. -/
theorem NoResetNoAck.advance (h : NoResetNoAck u) : NoResetNoAck (advance u) := by
  cases hf : u.future with
  | nil =>
    rw [advance_of_nil hf, NoResetNoAck, hf]
    exact List.forall_mem_singleton.mpr ⟨rfl, nofun⟩
  | cons p rest =>
    rw [advance_of_cons hf]
    exact fun x hx => h x (hf ▸ List.mem_cons_of_mem _ hx)

theorem AcquisitionAt.advance (h : AcquisitionAt past ph new u) : AcquisitionAt past ph new (advance u) := by
  constructor
  · rw [advance_regs, h.state]
  · rw [advance_regs, h.stage]
  · rw [advance_trace, h.trace]
  · rw [advance_regs, advance_cfg]
    exact h.ops

/-- The state is a moment of the acquisition that found the trace `past` under the configuration `c`, and the host lets it
go on. -/
structure InAcquisition (c : Cfg) (past : List Access) (s : State) : Prop where
  host : NoResetNoAck s
  cfg : s.cfg = c
  standing : ∃ ph new, AcquisitionAt past ph new s

theorem InAcquisition.step {c : Cfg} (h : InAcquisition c past s) (hstep : step s = .next t) : InAcquisition c past t := by
  obtain ⟨hhost, hcfg, ph, new, hat⟩ := h
  obtain ⟨hr, hc⟩ := hhost _ (.head _)
  have hcfg' := (step_cfg hstep).trans hcfg
  obtain ⟨hl, u, rfl, hu⟩ := step_cases hstep
  obtain ⟨hports, hfuture⟩ := hu.ports_eq
  obtain ⟨ph', new', hat'⟩ := hu.acquisition hl hr hc hat
  exact ⟨NoResetNoAck.advance (by rwa [NoResetNoAck, hports, hfuture]), hcfg', ph', new', hat'.advance⟩

/-- What every step keeps, every run keeps. -/
theorem run_keeps {P : State → Prop} (hP : ∀ s t, P s → step s = .next t → P t) {k : Nat} (hs : P s)
    (hrun : Sys2Proof.core.run k s = .next t) : P t := by
  induction k generalizing s with
  | zero => cases hrun; exact hs
  | succ k ih =>
    obtain ⟨u, hstep, hrest⟩ := run_succ.mp hrun
    exact ih (hP s u hs hstep) hrest

/-- The first step needs a legal configuration, and so a BOUND above RETRY = 0. -/
theorem inAcquisition_start (hl : CfgLegal s.cfg) (hs : AtAcquisitionStart s) (hh : NoResetNoAck s) :
    InAcquisition s.cfg s.trace s := by
  obtain ⟨hstate, hretry, -, -, hstage⟩ := hs
  refine ⟨hh, rfl, .waitReadyPre, [], hstate, hstage, (List.append_nil _).symm, ?_⟩
  rw [hretry]
  exact ⟨(bound_range_of_legal hl).1, rfl⟩

/-- Every moment of an acquisition is its start or stands in one of its phases. -/
theorem acquisition_of_run {k : Nat} (hs : AtAcquisitionStart s) (hh : NoResetNoAck s)
    (hrun : Sys2Proof.core.run k s = .next t) :
    t = s ∨ t.cfg = s.cfg ∧ ∃ ph new, AcquisitionAt s.trace ph new t := by
  cases k with
  | zero => cases hrun; exact .inl rfl
  | succ k =>
    obtain ⟨u, hstep, -⟩ := run_succ.mp hrun
    have hin := inAcquisition_start (step_cases hstep).1 hs hh
    obtain ⟨-, hcfg, hat⟩ := run_keeps (fun _ _ h => h.step) hin hrun
    exact .inr ⟨hcfg, hat⟩

/-! ### What the outcome says of the accesses -/

theorem countOp_eq (op : BusOp) (tr : List Access) : countOp op tr = (tr.map Access.op).count op := by
  rw [List.count, List.countP_map]
  rfl

theorem map_op_eq_polls {n : Nat} : new.map Access.op = polls n ↔ new.length = n ∧ ∀ a ∈ new, a.op = .rdStatus := by
  rw [polls, List.eq_replicate_iff, List.length_map, List.forall_mem_map]

theorem map_op_eq_append_singleton {ops : List BusOp} {op : BusOp} (h : new.map Access.op = ops ++ [op]) :
    ∃ (rest : List Access) (a : Access), new = rest ++ [a] ∧ rest.map Access.op = ops ∧ a.op = op := by
  obtain ⟨rest, last, rfl, hrest, hlast⟩ := List.map_eq_append_iff.mp h
  obtain ⟨a, rfl, ha⟩ := List.map_eq_singleton_iff.mp hlast
  exact ⟨rest, a, rfl, hrest, ha⟩

theorem AcquisitionAt.of_success (h : AcquisitionAt past ph new t) (hs : t.regs.state = stSuccess) :
    countOp .wrTrigger new = 1 ∧ ∃ (rest : List Access) (a : Access), new = rest ++ [a] ∧ a.op = .rdData := by
  obtain rfl : ph = .success := Phase.eq_ofCode (h.state.symm.trans hs) (by decide)
  obtain ⟨q, -, before, hb, ho⟩ := h.ops
  obtain ⟨rest, a, hnew, -, ha⟩ := map_op_eq_append_singleton ho
  exact ⟨by rw [countOp_eq, ho, hb.issued_read.trigger], rest, a, hnew, ha⟩

theorem AcquisitionAt.of_waitingForDevice (h : AcquisitionAt past ph new t)
    (hs : t.regs.stage = some .waitingForDevice) : new.length = t.cfg.bound ∧ ∀ a ∈ new, a.op = .rdStatus := by
  obtain rfl := Phase.eq_of_stage (h.stage.symm.trans hs)
  exact map_op_eq_polls.mp h.ops

theorem AcquisitionAt.of_discardingData (h : AcquisitionAt past ph new t) (hs : t.regs.stage = some .discardingData) :
    countOp .wrTrigger new = 0 ∧
      ∃ (rest : List Access) (a b : Access), new = rest ++ [a, b] ∧ a.op = .rdStatus ∧ b.op = .rdData := by
  obtain rfl := Phase.eq_of_stage (h.stage.symm.trans hs)
  obtain ⟨p, -, d, -, ho⟩ := h.ops
  refine ⟨by rw [countOp_eq, ho, ((issued_polls p).append (issued_drains (d + 1))).trigger], ?_⟩
  rw [drains_succ, ← List.append_assoc, List.append_cons _ _ [BusOp.rdData]] at ho
  obtain ⟨init, b, rfl, hinit, hb⟩ := map_op_eq_append_singleton ho
  obtain ⟨rest, a, rfl, -, ha⟩ := map_op_eq_append_singleton hinit
  exact ⟨rest, a, b, List.append_assoc .., ha, hb⟩

theorem AcquisitionAt.of_waitingForData (h : AcquisitionAt past ph new t) (hs : t.regs.stage = some .waitingForData) :
    ∃ (rest : List Access) (a : Access) (polled : List Access), new = rest ++ [a] ++ polled ∧ a.op = .wrTrigger ∧
      countOp .wrTrigger rest = 0 ∧ polled.length = t.cfg.bound ∧ ∀ x ∈ polled, x.op = .rdStatus := by
  obtain rfl := Phase.eq_of_stage (h.stage.symm.trans hs)
  obtain ⟨before, hb, ho⟩ := h.ops
  obtain ⟨init, polled, rfl, hinit, hpolls⟩ := List.map_eq_append_iff.mp ho
  obtain ⟨rest, a, rfl, hrest, ha⟩ := map_op_eq_append_singleton hinit
  exact ⟨rest, a, polled, rfl, ha, by rw [countOp_eq, hrest, hb.issued.trigger], map_op_eq_polls.mp hpolls⟩

end

/-! ### The statements -/

/-- Settles O50: the invariant gives the latched window, and each case of a step its accesses. -/
theorem accessesStayInTheWindow : Obligations.AccessesStayInTheWindow := by
  intro s t h hstep
  obtain ⟨-, u, rfl, hu⟩ := step_cases hstep
  rw [advance_trace]
  exact hu.growsSafely h.window

/-- Settles O57: the phase a run has reached bounds what it has issued. -/
theorem acquisitionTraceIsBounded : Obligations.AcquisitionTraceIsBounded := by
  intro s hs hh k t hrun
  obtain rfl | ⟨hcfg, ph, new, hat⟩ := acquisition_of_run hs hh hrun
  · exact ⟨[], (List.append_nil _).symm, Nat.zero_le _, Nat.zero_le _, Nat.zero_le _, rfl⟩
  · obtain ⟨n, hn, hstatus, hdata, htrigger, hconfig⟩ := hat.ops.issued
    simp only [countOp_eq, ← hcfg]
    exact ⟨new, hat.trace, hstatus, hdata, htrigger.trans_le hn, hconfig⟩

/-- Settles O58: STATE and STAGE name the phase a run has reached. -/
theorem outcomeTellsTheTrace : Obligations.OutcomeTellsTheTrace := by
  intro s hs hh k t hrun
  obtain rfl | ⟨hcfg, ph, new, hat⟩ := acquisition_of_run hs hh hrun
  · obtain ⟨hstate, -, -, -, hstage⟩ := hs
    rw [hstate, hstage]
    exact ⟨[], (List.append_nil _).symm, fun h => absurd h (by decide), nofun, nofun, nofun⟩
  · rw [← hcfg]
    exact ⟨new, hat.trace, hat.of_success, hat.of_waitingForDevice, hat.of_discardingData, hat.of_waitingForData⟩

/-- Settles O23: at an odd address the data read of each of the three operations is stuck; DRAIN issues it on a failed
check. -/
theorem misalignedDataReadIsStuck : Obligations.MisalignedDataReadIsStuck := by
  intro s hl hb ho
  have hstuck := dataReadStuck_of_odd hb ho
  refine ⟨?_, fun hs hw => ?_, fun hs hw hpending => ?_⟩
  · exact (guardLegal_of_legal hl).trans (if_pos hstuck)
  · exact (engineOp_enabled hl hs hw).trans (if_pos hstuck)
  · have hne : isNotEmpty s.cfg (statusValue s) = true := (isNotEmpty_eq _ _).trans (decide_eq_true hpending)
    exact (engineOp_enabled hl hs hw).trans (if_pos (by rw [hstuck, hne]; rfl))

end Sys2Proof.Machine

/-! # The encoding (30_encoding.md)

Decoding an encoding (O2), encoding what decodes (O3), words of each table (O1) and the reserved codes (O4).

Both directions go by the shape of the operand: one lemma says what each operand reader makes of the bytes `encode` writes,
one what bytes it accepts. -/

namespace Sys2Proof

section
variable {f : Byte → Instr} {g : Half → Instr} {l : Long → Instr} {k : Stage → Instr} {q : List Byte → Instr} {i : Instr}
  {sel : Selector} {c : BitVec 4} {code : Nat} {ops : List Byte}

/-! ### The operand bytes that `encode` writes -/

theorem halfOperand_splitHalf (g : Half → Instr) (v : Half) : halfOperand g (splitHalf v) = .ok (g v) :=
  congrArg (fun x => Except.ok (g x)) (joinHalf_split v)

theorem longOperand_splitLong (l : Long → Instr) (v : Long) : longOperand l (splitLong v) = .ok (l v) :=
  congrArg (fun x => Except.ok (l x)) (joinLong_split v)

theorem configOperand_splitLong (off : Long) (b : Byte) : configOperand (splitLong off ++ [b]) = .ok (.wrConfig off b) :=
  congrArg (fun x => Except.ok (Instr.wrConfig x b)) (joinLong_split off)

theorem eq_code_of_stageOfCode {n : Nat} {st : Stage} (h : stageOfCode n = some st) : n = st.code.toNat := by
  unfold stageOfCode at h
  split at h <;> cases h <;> rfl

theorem stageOperand_code (k : Stage → Instr) (st : Stage) : stageOperand k [st.code.zeroExtend 8] = .ok (k st) := by
  cases st <;> rfl

theorem stringOperand_of_le (h : ops.length ≤ outBufBytes) : stringOperand q ops = .ok (q ops) := if_pos h

/-! ### What an operand reader accepts -/

/-- Under the code `c` of the place `sel`, the reader `r` of operand bytes accepts only those of the word of a well-formed
operation. -/
def Reads (sel : Selector) (c : BitVec 4) (r : List Byte → Except DecodeError Instr) : Prop :=
  ∀ ops i, r ops = .ok i → WellFormed i ∧ encode i = ⟨sel, c, ops⟩

theorem noOperand_reads (hw : WellFormed i) (he : encode i = ⟨sel, c, []⟩) : Reads sel c (noOperand i) := by
  intro ops j h
  unfold noOperand at h
  split at h <;> cases h
  exact ⟨hw, he⟩

theorem byteOperand_reads (hw : ∀ b, WellFormed (f b)) (he : ∀ b, encode (f b) = ⟨sel, c, [b]⟩) :
    Reads sel c (byteOperand f) := by
  intro ops j h
  unfold byteOperand at h
  split at h <;> cases h
  exact ⟨hw _, he _⟩

theorem halfOperand_reads (hw : ∀ v, WellFormed (g v)) (he : ∀ v, encode (g v) = ⟨sel, c, splitHalf v⟩) :
    Reads sel c (halfOperand g) := by
  intro ops j h
  unfold halfOperand at h
  split at h <;> cases h
  exact ⟨hw _, by rw [he, splitHalf_join]⟩

theorem longOperand_reads (hw : ∀ v, WellFormed (l v)) (he : ∀ v, encode (l v) = ⟨sel, c, splitLong v⟩) :
    Reads sel c (longOperand l) := by
  intro ops j h
  unfold longOperand at h
  split at h <;> cases h
  exact ⟨hw _, by rw [he, splitLong_join]⟩

theorem configOperand_reads : Reads .bus 11 configOperand := by
  intro ops j h
  unfold configOperand at h
  split at h <;> cases h
  exact ⟨rfl, by rw [encode, splitLong_join]; rfl⟩

theorem stageOperand_reads (hw : ∀ st, WellFormed (k st)) (he : ∀ st, encode (k st) = ⟨sel, c, [st.code.zeroExtend 8]⟩) :
    Reads sel c (stageOperand k) := by
  intro ops j h
  unfold stageOperand at h
  split at h
  next b =>
    split at h <;> cases h
    next st hst =>
      have hb : b = st.code.zeroExtend 8 := by
        apply BitVec.eq_of_toNat_eq
        rw [eq_code_of_stageOfCode hst]
        cases st <;> rfl
      exact ⟨hw st, by rw [he, hb]⟩
  next => cases h

theorem stringOperand_reads (hw : ∀ bs : List Byte, bs.length ≤ outBufBytes → WellFormed (q bs))
    (he : ∀ bs, encode (q bs) = ⟨sel, c, bs⟩) : Reads sel c (stringOperand q) := by
  intro ops j h
  unfold stringOperand at h
  split at h <;> cases h
  next hle => exact ⟨hw ops hle, he ops⟩

/-! ### What the decoder of each place accepts -/

theorem decodeCmd_reads : Reads .cmd (.ofNat 4 code) (decodeCmd code) := by
  intro ops i h
  unfold decodeCmd at h
  split at h
  iterate 4 exact noOperand_reads rfl rfl _ _ h
  cases h

theorem decodeState_reads : Reads .state (.ofNat 4 code) (decodeState code) := by
  intro ops i h
  unfold decodeState at h
  split at h
  iterate 10 exact noOperand_reads rfl rfl _ _ h
  cases h

theorem decodeBus_reads : Reads .bus (.ofNat 4 code) (decodeBus code) := by
  intro ops i h
  unfold decodeBus at h
  split at h
  iterate 3 exact noOperand_reads rfl rfl _ _ h
  · exact configOperand_reads _ _ h
  · cases h

/-- An event has one bit, which is set where the event is present (R73). -/
theorem decodeEvent_reads (hc : code < 2) (hw : WellFormed i) (he : encode i = ⟨sel, 1, []⟩) :
    Reads sel (.ofNat 4 code) (decodeEvent i code) :=
  match code, hc with
  | 0, _ => nofun
  | 1, _ => noOperand_reads hw he

theorem decodeBit_reads {clear set : List Byte → Except DecodeError Instr} (hc : code < 2) (h0 : Reads sel 0 clear)
    (h1 : Reads sel 1 set) : Reads sel (.ofNat 4 code) (decodeBit clear set code) :=
  match code, hc with
  | 0, _ => h0
  | 1, _ => h1

theorem decodeExtract_reads : Reads .extractMode (.ofNat 4 code) (decodeExtract code) := by
  intro ops i h
  unfold decodeExtract at h
  split at h
  iterate 3 exact halfOperand_reads (fun _ => rfl) (fun _ => rfl) _ _ h
  cases h

theorem decodeRes_reads : Reads .res (.ofNat 4 code) (decodeRes code) := by
  intro ops i h
  unfold decodeRes at h
  split at h
  iterate 4 exact noOperand_reads rfl rfl _ _ h
  cases h

/-- The code `encode` writes for an operation found under `code`: DIAGLINE's free bit OUT_MODE is cleared (R79). -/
def canonicalCode : Selector → Nat → BitVec 4
  | .diag, 3 => 2
  | _, code => .ofNat 4 code

theorem canonicalCode_toNat (h : ¬ (sel = .diag ∧ c = 3)) : canonicalCode sel c.toNat = c := by
  unfold canonicalCode
  split
  next hc => exact absurd ⟨rfl, BitVec.eq_of_toNat_eq hc⟩ h
  next => exact BitVec.eq_of_toNat_eq (Nat.mod_eq_of_lt c.isLt)

theorem decodeDiag_reads (hc : code < 4) : Reads .diag (canonicalCode .diag code) (decodeDiag code) :=
  match code, hc with
  | 0, _ => noOperand_reads rfl rfl
  | 1, _ => noOperand_reads rfl rfl
  | 2, _ => stageOperand_reads (fun _ => rfl) fun _ => rfl
  | 3, _ => stageOperand_reads (fun _ => rfl) fun _ => rfl

theorem decodeIn_reads (hc : code < 2 ^ codeWidth sel) : Reads sel (canonicalCode sel code) (decodeIn sel code) := by
  cases sel with
  | cmd => exact decodeCmd_reads
  | state => exact decodeState_reads
  | bus => exact decodeBus_reads
  | tick | rst => exact decodeEvent_reads hc rfl rfl
  | readyPol | nePol =>
    exact decodeBit_reads hc (byteOperand_reads (fun _ => rfl) fun _ => rfl) (byteOperand_reads (fun _ => rfl) fun _ => rfl)
  | extractMode => exact decodeExtract_reads
  | outMode =>
    exact decodeBit_reads hc (halfOperand_reads (fun _ => rfl) fun _ => rfl) (longOperand_reads (fun _ => rfl) fun _ => rfl)
  | diag => exact decodeDiag_reads hc
  | scale | convert =>
    obtain rfl := Nat.lt_one_iff.mp hc
    exact halfOperand_reads (fun _ => rfl) fun _ => rfl
  | divide | decimal =>
    obtain rfl := Nat.lt_one_iff.mp hc
    exact longOperand_reads (fun _ => rfl) fun _ => rfl
  | trunc =>
    obtain rfl := Nat.lt_one_iff.mp hc
    exact stringOperand_reads (fun _ => decide_eq_true) fun _ => rfl
  | res => exact decodeRes_reads

/-- What decodes has a code of its place's width, and the decoder of that place accepts it. -/
theorem decode_eq_ok {w : OpWord} (h : decode w = .ok i) :
    w.code.toNat < 2 ^ codeWidth w.sel ∧ decodeIn w.sel w.code.toNat w.operands = .ok i := by
  unfold decode at h
  split at h
  next hc => exact ⟨hc, h⟩
  next => cases h

/-! ### The reserved codes (R81) -/

theorem decodeState_reserved (h : 10 ≤ code) : decodeState code ops = .error .reservedState := by
  obtain ⟨n, rfl⟩ := Nat.exists_eq_add_of_le' h
  rfl

theorem decodeBus_unused (h : code ∉ [0, 5, 10, 11]) : decodeBus code ops = .error .unusedDescriptor := by
  unfold decodeBus
  split
  iterate 4 exact absurd (by decide) h
  rfl

/-- A four-bit code always has the width of its place. -/
theorem decode_of_width_four (h : codeWidth sel = 4) : decode ⟨sel, c, ops⟩ = decodeIn sel c.toNat ops :=
  if_pos (by rw [h]; exact c.isLt)

end

/-! ### The statements -/

/-- Settles O2: the operand bytes `encode` writes are read back by the reader of the operation's own code. -/
theorem decodeOfEncode : Obligations.DecodeOfEncode := by
  intro i hw
  cases i with
  | nop | start | init | ack | idle | waitReadyPre | drain | trigger | waitReadyPost | read | success | timeout | fault
  | initState | suspendExpire | reset | rdStatus | rdData | wrTrigger | lenientZeroValue | lenientEmpty
  | raiseWindowFault => rfl
  | isReadyClear s | isReadySet s | isNotEmptyClear s | isNotEmptySet s => rfl
  | wrConfig off b => exact configOperand_splitLong off b
  | extractLow12 w => exact halfOperand_splitHalf .extractLow12 w
  | extractShift4 w => exact halfOperand_splitHalf .extractShift4 w
  | extractMask4 w => exact halfOperand_splitHalf .extractMask4 w
  | scale r => exact halfOperand_splitHalf .scale r
  | convert r => exact halfOperand_splitHalf .convert r
  | rawOut r => exact halfOperand_splitHalf .rawOut r
  | divide sc => exact longOperand_splitLong .divide sc
  | format v => exact longOperand_splitLong .format v
  | decimal v => exact longOperand_splitLong .decimal v
  | diagLine st => exact stageOperand_code .diagLine st
  | trunc full => exact stringOperand_of_le (of_decide_eq_true hw)
  | raiseTimeout st => cases st <;> rfl

/-- Settles O3: what the place's decoder accepts is the word of its operation, up to the code `canonicalCode` gives. -/
theorem encodeOfDecode : Obligations.EncodeOfDecode := by
  intro w i h
  obtain ⟨hc, hin⟩ := decode_eq_ok h
  obtain ⟨hwf, henc⟩ := decodeIn_reads hc w.operands i hin
  exact ⟨hwf, fun hfree => by rw [henc, canonicalCode_toNat hfree]⟩

/-- Settles O1: the decoder evaluates on each word. -/
theorem tableWordsDecode : Obligations.TableWordsDecode :=
  ⟨rfl, rfl, rfl, rfl, rfl, rfl, rfl, rfl, rfl, rfl⟩

/-- Settles O4: each place's last row rejects every code its table does not list. -/
theorem reservedCodesRejected : Obligations.ReservedCodesRejected := by
  refine ⟨fun c ops h => ?_, fun _ => rfl, fun c ops h => ?_⟩
  · exact (decode_of_width_four rfl).trans (decodeState_reserved h)
  · have hc : c.toNat ∉ [0b0000#4, 0b0101#4, 0b1010#4, 0b1011#4].map BitVec.toNat :=
      mt (List.mem_map_of_injective fun _ _ => BitVec.eq_of_toNat_eq).mp h
    exact (decode_of_width_four rfl).trans (decodeBus_unused hc)

end Sys2Proof

/-! # The Register Interface (40_register_interface.md)

The four operations executed on their own: RD_STATUS (O24), RD_DATA (O25), WR_TRIGGER (O26), WR_CONFIG (O27). -/

namespace Sys2Proof.Machine

section
variable {s : State} {d : Device}

/-! ### The device by the queue it holds (20_memory.md R62) -/

theorem Device.statusAnswer_of_cons {b : Byte} {rest : List Byte} (h : d.status = b :: rest) : d.statusAnswer = b := by
  rw [statusAnswer, h]

theorem Device.afterStatus_of_cons {b : Byte} {rest : List Byte} (h : d.status = b :: rest) :
    d.afterStatus = { d with status := rest } := by
  rw [afterStatus, h]

theorem Device.afterStatus_of_nil (h : d.status = []) : d.afterStatus = { d with draws := d.draws + 1 } := by
  rw [afterStatus, h]

theorem Device.dataAnswer_of_cons {a : Byte × Byte} {rest : List (Byte × Byte)} (h : d.data = a :: rest) :
    d.dataAnswer = a := by
  rw [dataAnswer, h]

theorem Device.afterData_of_cons {a : Byte × Byte} {rest : List (Byte × Byte)} (h : d.data = a :: rest) :
    d.afterData = { d with data := rest } := by
  rw [afterData, h]

theorem Device.afterData_of_nil (h : d.data = []) : d.afterData = { d with draws := d.draws + 2 } := by
  rw [afterData, h]

/-- The byte at the lower address is the low byte (20_memory.md R54). -/
theorem dataWord_toNat (lo hi : Byte) : (dataWord (lo, hi)).toNat = lo.toNat + 256 * hi.toNat := by
  change (hi ++ lo).toNat = _
  rw [BitVec.toNat_append, ← Nat.shiftLeft_add_eq_or_of_lt lo.isLt, Nat.shiftLeft_eq]
  omega

/-! ### What each access does -/

/-- RD_STATUS, by the byte the device answers and what the device is after it. -/
theorem exec_rdStatus {b : Byte} (hl : CfgLegal s.cfg) (hb : s.dev.statusAnswer = b) (hd : s.dev.afterStatus = d) :
    exec .rdStatus s = .next { s with
      dev := d
      trace := s.trace ++ [⟨.rdStatus, s.regs.lBase + s.cfg.offStatus, b.zeroExtend 16⟩]
      ret := .status b } := by
  subst hb hd
  exact guardLegal_of_legal hl

/-- RD_DATA where it is not stuck, by the two bytes the device answers and what the device is after them. -/
theorem exec_rdData {a : Byte × Byte} (hl : CfgLegal s.cfg) (hn : dataReadStuck s = false) (ha : s.dev.dataAnswer = a)
    (hd : s.dev.afterData = d) :
    exec .rdData s = .next { s with
      dev := d
      trace := s.trace ++ [⟨.rdData, s.regs.lBase + s.cfg.offData, dataWord a⟩]
      ret := .data (dataWord a) } := by
  subst ha hd
  exact (guardLegal_of_legal hl).trans (if_neg (ne_true_of_eq_false hn))

/-- R9 (b). -/
theorem trigValue_ne_zero_of_legal {c : Cfg} (h : CfgLegal c) : c.trigValue ≠ 0 := by
  obtain ⟨-, -, htrig, -⟩ := h
  exact htrig

end

/-! ### The statements -/

/-- Settles O24: the byte is the device's answer, from its queue or, when that is empty, free. -/
theorem rdStatusCompletes : Obligations.RdStatusCompletes := by
  intro s hl
  constructor
  · intro b rest hq
    exact exec_rdStatus hl (Device.statusAnswer_of_cons hq) (Device.afterStatus_of_cons hq)
  · intro hq
    exact ⟨s.dev.statusAnswer, exec_rdStatus hl rfl (Device.afterStatus_of_nil hq)⟩

/-- Settles O25: the address hypothesis says that the read is not stuck, and the word is the answer's two bytes joined. -/
theorem rdDataCompletes : Obligations.RdDataCompletes := by
  intro s hl ha
  have hn := (dataReadStuck_eq_false s).mpr ha
  constructor
  · intro lo hi rest hq
    exact ⟨dataWord (lo, hi), dataWord_toNat lo hi,
      exec_rdData hl hn (Device.dataAnswer_of_cons hq) (Device.afterData_of_cons hq)⟩
  · intro hq
    exact ⟨dataWord s.dev.dataAnswer, exec_rdData hl hn rfl (Device.afterData_of_nil hq)⟩

/-- Settles O26: a write only appends its access; the byte is not zero in a legal CFG. -/
theorem wrTriggerCompletes : Obligations.WrTriggerCompletes := fun _ hl =>
  ⟨guardLegal_of_legal hl, trigValue_ne_zero_of_legal hl⟩

/-- Settles O27: a write only appends its access, whatever the offset. -/
theorem wrConfigCompletes : Obligations.WrConfigCompletes := fun _ _ _ hl => guardLegal_of_legal hl

end Sys2Proof.Machine

/-! # The acquisition state machine (41_acquisition_fsm.md)

What each command (O10 to O13), each state operation (O14 to O21) and the suspend expiry (O22) do, the commands that cannot
disturb an operation (O52), the transition table (O49), the termination of an acquisition (O55) and the attach-time
configuration (O56). -/

namespace Sys2Proof.Machine

section
variable {s t u : State} {r : Regs} {k : StepOutcome} {code next : StateCode} {st : Stage} {past new : List Access}

/-! ### The commands (R100 to R103) -/

theorem hostCommand_accepted {accepted : Bool} (hl : CfgLegal s.cfg) (ha : accepted = true) :
    hostCommand accepted s r = .next (s.setRegs r) :=
  hostCommand_eq_next.mpr ⟨hl, by rw [ha, if_pos rfl]⟩

theorem hostCommand_ignored {accepted : Bool} (hl : CfgLegal s.cfg) (ha : accepted = false) :
    hostCommand accepted s r = .next s :=
  hostCommand_eq_next.mpr ⟨hl, by rw [ha, if_neg Bool.false_ne_true]⟩

/-- What START and INIT leave, with the window ports in their widths: the reset registers but for what is latched, STATE
and, where the window is rejected, OUTCOME. -/
theorem enterOrFault_begin {offs : List (Nat × Nat)} {cap : Half} {ok : Prop} (hb : s.ports.winBase < 2 ^ s.cfg.aw)
    (hl : s.ports.winLen < 2 ^ (s.cfg.aw + 1))
    (hok : ok ↔ WindowOK s.cfg.aw s.ports.winBase s.ports.winLen s.ports.winValid offs) :
    (ok → enterOrFault s offs code (beginOperation (sampledBase s) (sampledLen s) cap r) =
      { Regs.reset with state := code, lBase := s.ports.winBase, lLen := s.ports.winLen, lCap := cap }) ∧
    (¬ ok → enterOrFault s offs code (beginOperation (sampledBase s) (sampledLen s) cap r) =
      { Regs.reset with
        state := stFault, outcome := .fault, lBase := s.ports.winBase, lLen := s.ports.winLen, lCap := cap }) := by
  have hbase : sampledBase s = s.ports.winBase := Nat.mod_eq_of_lt hb
  have hlen : sampledLen s = s.ports.winLen := Nat.mod_eq_of_lt hl
  rw [hok, ← hbase, ← hlen]
  constructor
  · intro h
    rw [enterOrFault_ok h, beginOperation_eq]
  · intro h
    rw [enterOrFault_fault h, beginOperation_eq, raiseWindowFault_eq]
    rfl

theorem exec_start_of_idle (hl : CfgLegal s.cfg) (hs : s.regs.state = stIdle) :
    exec .start s = .next (s.setRegs (enterOrFault s (acquireOffs s.cfg) stWaitReadyPre
      (beginOperation (sampledBase s) (sampledLen s) s.ports.cap s.regs))) :=
  hostCommand_accepted hl (beq_iff_eq.mpr hs)

theorem exec_init_of_idle (hl : CfgLegal s.cfg) (hs : s.regs.state = stIdle) :
    exec .init s = .next (s.setRegs (enterOrFault s (initOffs s.cfg) stInit
      (beginOperation (sampledBase s) (sampledLen s) 0 s.regs))) :=
  hostCommand_accepted hl (beq_iff_eq.mpr hs)

theorem exec_start_of_not_idle (hl : CfgLegal s.cfg) (hs : s.regs.state ≠ stIdle) : exec .start s = .next s :=
  hostCommand_ignored hl (beq_eq_false_iff_ne.mpr hs)

theorem exec_init_of_not_idle (hl : CfgLegal s.cfg) (hs : s.regs.state ≠ stIdle) : exec .init s = .next s :=
  hostCommand_ignored hl (beq_eq_false_iff_ne.mpr hs)

theorem exec_ack_of_not_terminal (hl : CfgLegal s.cfg) (hs : ¬ Terminal s.regs.state) : exec .ack s = .next s :=
  hostCommand_ignored hl (Bool.eq_false_iff.mpr fun h => hs ((done_iff _).mp h))

theorem exec_nop (hl : CfgLegal s.cfg) : exec .nop s = .next s := guardLegal_of_legal hl

theorem Working.ne_idle (h : Working code) : code ≠ stIdle := by rintro rfl; revert h; decide

theorem Working.not_terminal (h : Working code) : ¬ Terminal code := by revert code; decide

/-- Every code of CMD is a command, and in a working state none is accepted (R103, R116). -/
theorem exists_exec_cmd_of_working (hl : CfgLegal s.cfg) (hw : Working s.regs.state) (c : BitVec 2) :
    ∃ i, decode ⟨.cmd, c.zeroExtend 4, []⟩ = .ok i ∧ exec i s = .next s := by
  obtain ⟨-, hd⟩ | ⟨-, hd⟩ | ⟨-, hd⟩ | ⟨-, hd⟩ := decode_cmd c
  · exact ⟨_, hd, exec_nop hl⟩
  · exact ⟨_, hd, exec_start_of_not_idle hl hw.ne_idle⟩
  · exact ⟨_, hd, exec_init_of_not_idle hl hw.ne_idle⟩
  · exact ⟨_, hd, exec_ack_of_not_terminal hl hw.not_terminal⟩

/-! ### The state operations (R104 to R113) -/

theorem engineOp_disabled (hl : CfgLegal s.cfg) (h : s.regs.state ≠ code ∨ s.regs.waiting = true) :
    engineOp code s k = .next s :=
  engineOp_eq_next.mpr ⟨hl, .inr ⟨fun ⟨hs, hw⟩ => h.elim (absurd hs) fun ht => Bool.false_ne_true (hw.symm.trans ht),
    rfl⟩⟩

/-- The operation of a resting state, enabled or not. -/
theorem engineOp_stand (hl : CfgLegal s.cfg) : engineOp code s (.next s) = .next s := by
  rw [engineOp, guardLegal_of_legal hl, ite_self]

/-- A poll of READY, its test written out bit by bit (R104, R107). -/
theorem readyPoll_eq : readyPoll st next s = (readStatus s).setRegs
    (if ((statusValue s &&& s.cfg.readyMask) ≠ 0) ↔ s.cfg.readyPol = true then
      { s.regs with status := statusValue s, retry := 0, state := next }
    else pollFailed s.cfg st { s.regs with status := statusValue s }) := by
  split_ifs with h
  · exact readyPoll_passed ((isReady_eq _ _).trans (decide_eq_true h))
  · exact readyPoll_failed ((isReady_eq _ _).trans (decide_eq_false h))

/-- A passed check makes no data read, so it is never stuck (R105). -/
theorem execDrain_of_passed (hl : CfgLegal s.cfg) (hs : s.regs.state = stDrain) (hw : s.regs.waiting = false)
    (hn : isNotEmpty s.cfg (statusValue s) = false) : execDrain s = .next (drainPoll s) := by
  rw [execDrain, engineOp_enabled hl hs hw, hn, Bool.and_false, if_neg Bool.false_ne_true]

/-- The two accesses of a failed check, in issue order. -/
theorem readData_readStatus_eq : readData (readStatus s) = { s with
    dev := s.dev.afterStatus.afterData
    trace := s.trace ++ [statusAccess s, dataAccess (readStatus s)] } := by
  rw [readData, State.logAccess, State.setDev, readStatus_trace, List.append_assoc]
  rfl

theorem execRead_of_not_stuck (hl : CfgLegal s.cfg) (hs : s.regs.state = stRead) (hw : s.regs.waiting = false)
    (hd : dataReadStuck s = false) :
    execRead s = .next ((readData s).setRegs (deliver s.cfg (dataValue s) s.regs)) := by
  rw [execRead, engineOp_enabled hl hs hw, hd, if_neg Bool.false_ne_true]

/-- The registers READ writes, the two output modes as one record (R108). -/
theorem deliver_eq (c : Cfg) (w : Half) (r : Regs) : deliver c w r =
    let raw := extract c.extractMode w
    let volt := (deliver c w r).volt
    let full := if c.outMode = .formatted then format c.p volt else rawOut raw
    { r with
      sample := w, raw := raw, scaled := (deliver c w r).scaled, volt := volt,
      value := if c.outMode = .formatted then volt else raw.zeroExtend 64,
      outLen := BitVec.ofNat 6 (truncLen full r.lCap), outBuf := truncBuf full r.lCap,
      outcome := .success, state := stSuccess } := by
  unfold deliver successReport
  cases c.outMode <;> rfl

/-- The table of a legal CFG has an entry for every index below N_CFG (00_scope.md R8). -/
theorem cfgTable_getElem?_of_legal {c : Cfg} {n : Nat} (hl : CfgLegal c) (hn : n < c.nCfg) :
    ∃ e, c.cfgTable[n]? = some e := by
  obtain ⟨⟨-, -, -, -, hlen⟩, -⟩ := hl
  exact ⟨_, List.getElem?_eq_getElem (hlen ▸ hn)⟩

/-- The state after INIT_STATE has written an entry of the table. -/
def writeEntry (s : State) (e : CfgEntry) : State :=
  (writeConfig e.offset e.byte s).setRegs { s.regs with cfgIdx := s.regs.cfgIdx + 1 }

theorem exec_initState_of_entry {e : CfgEntry} (hl : CfgLegal s.cfg) (hs : s.regs.state = stInit)
    (hw : s.regs.waiting = false) (hn : s.regs.cfgIdx.toNat < s.cfg.nCfg)
    (he : s.cfg.cfgTable[s.regs.cfgIdx.toNat]? = some e) :
    exec .initState s = .next (writeEntry s e) := by
  refine (engineOp_enabled hl hs hw).trans ?_
  rw [if_neg hn.ne, he]
  rfl

theorem exec_initState_of_exhausted (hl : CfgLegal s.cfg) (hs : s.regs.state = stInit)
    (hw : s.regs.waiting = false) (hn : s.regs.cfgIdx.toNat = s.cfg.nCfg) :
    exec .initState s = .next (s.setRegs { s.regs with outcome := .success, state := stSuccess }) :=
  (engineOp_enabled hl hs hw).trans (if_pos hn)

/-! ### The transition table (R115) -/

/-- The registers after a step are those of a reset, of a row of the table, or leave STATE as it is. -/
abbrev ByTheTable (s : State) (r : Regs) : Prop :=
  (s.ports.rst = true ∧ r.state = stIdle) ∨ (∃ e, EventAt s e ∧ Transition s r e) ∨
    (r.state = s.regs.state ∧ ¬ (EventAt s .engine ∧ Working s.regs.state))

theorem EngineStep.byTheTable (he : EngineStep s code) (h : Transition s r .engine) : ByTheTable s r :=
  .inr (.inl ⟨.engine, ⟨he.rst, he.cmd, he.waiting⟩, h⟩)

theorem ReadyPoll.transition_passed (hp : ReadyPoll code st next) (hs : s.regs.state = code)
    (hb : isReady s.cfg (statusValue s) = true) (hr : r.state = next) : Transition s r .engine := by
  cases hp with
  | pre => exact .preReady hs hb hr
  | post => exact .postReady hs hb hr

theorem ReadyPoll.transition_failed (hp : ReadyPoll code st next) (hs : s.regs.state = code)
    (hb : isReady s.cfg (statusValue s) = false) (hn : s.regs.retry.toNat + 1 < s.cfg.bound) (hr : r.state = code)
    (hw : r.waiting = true) : Transition s r .engine := by
  cases hp with
  | pre => exact .preAgain hs hb hn hr hw
  | post => exact .postAgain hs hb hn hr hw

theorem ReadyPoll.transition_exhausted (hp : ReadyPoll code st next) (hs : s.regs.state = code)
    (hb : isReady s.cfg (statusValue s) = false) (hn : s.regs.retry.toNat + 1 = s.cfg.bound) (hr : r.state = stTimeout)
    (hst : r.stage = some st) : Transition s r .engine := by
  cases hp with
  | pre => exact .preTimeout hs hb hn hr hst
  | post => exact .postTimeout hs hb hn hr hst

theorem transition_of_ack (hs : Terminal s.regs.state) (hr : r.state = stIdle) : Transition s r .ack := by
  obtain hs | hs | hs := hs
  · exact .successAcked hs hr
  · exact .timeoutAcked hs hr
  · exact .faultAcked hs hr

theorem StepCase.byTheTable (h : SequencingInv s) (hu : StepCase s u) : ByTheTable s u.regs := by
  have below (hp : Polling s.regs.state) (hn : s.regs.retry.toNat + 1 ≠ s.cfg.bound) :
      s.regs.retry.toNat + 1 < s.cfg.bound := lt_of_le_of_ne (h.retryPolling hp) hn
  cases hu with
  | stand _ hn => exact .inr (.inr ⟨rfl, hn⟩)
  | reset hr => exact .inl ⟨hr, rfl⟩
  | expire _ hw => exact .inr (.inr ⟨rfl, fun ⟨⟨_, _, hn⟩, _⟩ => by rw [hw] at hn; cases hn⟩)
  | start hr hc hs hok => exact .inr (.inl ⟨.start, ⟨hr, hc⟩, .startAccepted hs hok rfl⟩)
  | startFault hr hc hs hok => exact .inr (.inl ⟨.start, ⟨hr, hc⟩, .startFaulted hs hok rfl⟩)
  | init hr hc hs hok => exact .inr (.inl ⟨.init, ⟨hr, hc⟩, .initAccepted hs hok rfl⟩)
  | initFault hr hc hs hok => exact .inr (.inl ⟨.init, ⟨hr, hc⟩, .initFaulted hs hok rfl⟩)
  | ack hr hc hs => exact .inr (.inl ⟨.ack, ⟨hr, hc⟩, transition_of_ack hs rfl⟩)
  | ready hp he hb => exact he.byTheTable (hp.transition_passed he.state hb rfl)
  | notReady hp he hb hn =>
    exact he.byTheTable (hp.transition_failed he.state hb (below (he.state ▸ hp.polling) hn) he.state rfl)
  | readyTimeout hp he hb hn => exact he.byTheTable (hp.transition_exhausted he.state hb hn rfl rfl)
  | drained he hb => exact he.byTheTable (.drained he.state hb rfl)
  | notDrained he hb _ hn =>
    exact he.byTheTable (.drainAgain he.state hb (below (he.state ▸ by decide) hn) he.state rfl)
  | drainTimeout he hb _ hn => exact he.byTheTable (.drainTimeout he.state hb hn rfl rfl)
  | trigger he => exact he.byTheTable (.triggered he.state rfl)
  | read he => exact he.byTheTable (.delivered he.state rfl)
  | attach he hn => exact he.byTheTable (.attachAgain he.state (lt_of_le_of_ne h.cfgIdx hn) he.state)
  | attached he hn => exact he.byTheTable (.attached he.state hn rfl)

/-! ### The quiet environment (30_encoding.md R85) -/

/-- The quiet environment does not move. -/
theorem advance_of_quiet (h : QuietEnvironment s) : advance s = s := by
  obtain ⟨hr, hc, ht, hf⟩ := h
  rw [advance_of_nil hf, ← hr, ← hc, ← ht]

/-- In it a step is the operation selected, and no more. -/
theorem step_of_quiet {i : Instr} (hf : fetch s = .ok (some i)) (hx : exec i s = .next u) (hu : QuietEnvironment u) :
    step s = .next u := by
  rw [step_of_fetch hf, hx, settle, advance_of_quiet hu]

/-- An awaited suspend expires at once. -/
theorem step_of_suspended (hl : CfgLegal s.cfg) (hq : QuietEnvironment s) (hw : s.regs.waiting = true) :
    step s = .next (s.setRegs { s.regs with waiting := false }) := by
  obtain ⟨hr, -, ht, -⟩ := id hq
  exact step_of_quiet (fetch_of_tick hr hw ht) (guardLegal_of_legal hl) hq

/-- Otherwise the step is the engine's. -/
theorem fetch_of_quiet {i : Instr} (hq : QuietEnvironment s) (hw : s.regs.waiting = false)
    (hd : decode ⟨.state, s.regs.state, []⟩ = .ok i) : fetch s = .ok (some i) := by
  obtain ⟨hr, hc, -⟩ := hq
  exact fetch_of_state hr hc hw hd

theorem StepCase.quiet (hu : StepCase s u) (hq : QuietEnvironment s) : QuietEnvironment u := by
  obtain ⟨hports, hfuture⟩ := hu.ports_eq
  rwa [QuietEnvironment, hports, hfuture]

theorem QuietEnvironment.noResetNoAck (hq : QuietEnvironment s) : NoResetNoAck s := by
  obtain ⟨hr, hc, -, hf⟩ := hq
  rw [NoResetNoAck, hf, List.forall_mem_singleton, hc]
  exact ⟨hr, nofun⟩

/-! ### How long an acquisition takes (R117) -/

/-- The most steps a phase needs to DONE = 1, with BOUND = b and RETRY = n, when not suspended: a polling phase makes at most
b - n checks with an expiry between each two, the others one step each. -/
def Phase.stepsLeft (b n : Nat) : Phase → Nat
  | .waitReadyPre => 2 * (b - n) - 1 + 4 * b
  | .drain => 2 * (b - n) - 1 + (2 * b + 1)
  | .trigger => 2 * b + 1
  | .waitReadyPost => 2 * (b - n) - 1 + 1
  | .read => 1
  | .success | .timeout _ => 0

/-- The same of a state, with the expiry of a suspend. -/
def stepsLeft (s : State) : Nat :=
  (Phase.ofCode s.regs.state).stepsLeft s.cfg.bound s.regs.retry.toNat + s.regs.waiting.toNat

theorem stepsLeft_of_code (hs : s.regs.state = code) (hw : s.regs.waiting = false) :
    stepsLeft s = (Phase.ofCode code).stepsLeft s.cfg.bound s.regs.retry.toNat := by
  rw [stepsLeft, hs, hw]
  rfl

/-- A passed check leads to a phase that needs less, even with all its checks to come. -/
theorem ReadyPoll.stepsLeft_next_lt {b n : Nat} (hp : ReadyPoll code st next) (hn : n < b) :
    (Phase.ofCode next).stepsLeft b 0 < (Phase.ofCode code).stepsLeft b n := by
  cases hp
  · show 2 * (b - 0) - 1 + (2 * b + 1) < 2 * (b - n) - 1 + 4 * b
    omega
  · show 1 < 2 * (b - n) - 1 + 1
    omega

theorem stepsLeft_trigger_lt {b n : Nat} (hn : n < b) :
    (Phase.ofCode stTrigger).stepsLeft b 0 < (Phase.ofCode stDrain).stepsLeft b n := by
  show 2 * b + 1 < 2 * (b - n) - 1 + (2 * b + 1)
  omega

theorem stepsLeft_waitReadyPost_lt {b n : Nat} (hb : 1 ≤ b) :
    (Phase.ofCode stWaitReadyPost).stepsLeft b 0 < (Phase.ofCode stTrigger).stepsLeft b n := by
  show 2 * (b - 0) - 1 + 1 < 2 * b + 1
  omega

/-- One more failed check and the expiry after it need less than the check did. -/
theorem stepsLeft_suspend_lt {b n : Nat} (hp : Polling code) (hn : n + 1 < b) :
    (Phase.ofCode code).stepsLeft b (n + 1) + 1 < (Phase.ofCode code).stepsLeft b n := by
  obtain rfl | rfl | rfl := hp
  · show 2 * (b - (n + 1)) - 1 + 4 * b + 1 < 2 * (b - n) - 1 + 4 * b
    omega
  · show 2 * (b - (n + 1)) - 1 + (2 * b + 1) + 1 < 2 * (b - n) - 1 + (2 * b + 1)
    omega
  · show 2 * (b - (n + 1)) - 1 + 1 + 1 < 2 * (b - n) - 1 + 1
    omega

theorem stepsLeft_pos {b n : Nat} (ha : Acquiring code) (hb : 1 ≤ b) : 0 < (Phase.ofCode code).stepsLeft b n := by
  obtain (rfl | rfl | rfl) | rfl | rfl := ha
  · show 0 < 2 * (b - n) - 1 + 4 * b
    omega
  all_goals exact Nat.succ_pos _

theorem AcquisitionAt.retry_lt {ph : Phase} (h : AcquisitionAt past ph new s) (hp : Polling s.regs.state) :
    s.regs.retry.toNat < s.cfg.bound :=
  h.ops.retry_lt (h.state ▸ hp)

theorem stepsLeft_lt_of_code (hs : s.regs.state = code) (hw : s.regs.waiting = false) (hu : u.regs.state = next)
    (hwu : u.regs.waiting = false) (hc : u.cfg = s.cfg)
    (hlt : (Phase.ofCode next).stepsLeft s.cfg.bound u.regs.retry.toNat <
      (Phase.ofCode code).stepsLeft s.cfg.bound s.regs.retry.toNat) : stepsLeft u < stepsLeft s := by
  rwa [stepsLeft_of_code hs hw, stepsLeft_of_code hu hwu, hc]

/-- A suspended check leaves less to do: the check is counted, and its expiry is still to come. -/
theorem stepsLeft_lt_of_suspend (hl : CfgLegal s.cfg) (hs : s.regs.state = code) (hw : s.regs.waiting = false)
    (hp : Polling code) (hlt : s.regs.retry.toNat < s.cfg.bound) (hn : s.regs.retry.toNat + 1 ≠ s.cfg.bound)
    (hc : u.cfg = s.cfg)
    (hr : u.regs = { s.regs with status := statusValue s, retry := s.regs.retry + 1, waiting := true }) :
    stepsLeft u < stepsLeft s := by
  rw [stepsLeft_of_code hs hw, stepsLeft, hc, hr, hs, counter_succ_toNat hlt (bound_range_of_legal hl).2]
  exact stepsLeft_suspend_lt hp (lt_of_le_of_ne hlt hn)

/-- Every engine step of an acquisition leaves less to do. -/
theorem StepCase.stepsLeft_lt {ph : Phase} (hl : CfgLegal s.cfg) (h : AcquisitionAt past ph new s)
    (hev : EventAt s .engine) (ha : Acquiring s.regs.state) (hu : StepCase s u) : stepsLeft u < stepsLeft s := by
  obtain ⟨hr, hc, hw⟩ := hev
  have hb := (bound_range_of_legal hl).1
  have ended : 0 < stepsLeft s := (stepsLeft_of_code rfl hw).symm ▸ stepsLeft_pos ha hb
  cases hu with
  | stand _ hn => exact absurd ⟨⟨hr, hc, hw⟩, .inl ha⟩ hn
  | reset hrst => exact absurd (hr.symm.trans hrst) Bool.false_ne_true
  | expire _ hwt => exact absurd hwt (ne_true_of_eq_false hw)
  | start _ hcmd | startFault _ hcmd | init _ hcmd | initFault _ hcmd | ack _ hcmd => cases hc.symm.trans hcmd
  | attach he | attached he => exact absurd he.state ha.ne_init
  | ready hp he =>
    exact stepsLeft_lt_of_code he.state hw rfl hw rfl (hp.stepsLeft_next_lt (h.retry_lt (he.state ▸ hp.polling)))
  | notReady hp he _ hn =>
    exact stepsLeft_lt_of_suspend hl he.state hw hp.polling (h.retry_lt (he.state ▸ hp.polling)) hn rfl rfl
  | drained he =>
    exact stepsLeft_lt_of_code he.state hw rfl hw rfl (stepsLeft_trigger_lt (h.retry_lt (he.state ▸ by decide)))
  | notDrained he _ _ hn =>
    exact stepsLeft_lt_of_suspend hl he.state hw (by decide) (h.retry_lt (he.state ▸ by decide)) hn rfl rfl
  | trigger he => exact stepsLeft_lt_of_code he.state hw rfl hw rfl (stepsLeft_waitReadyPost_lt hb)
  | readyTimeout | drainTimeout => exact ended
  | read he => exact stepsLeft_lt_of_code (next := stSuccess) he.state hw rfl hw rfl Nat.zero_lt_one

/-! ### An acquisition left alone -/

/-- A moment of an acquisition in a quiet environment, on a bus that carries its data reads. -/
structure QuietAcquisition (past : List Access) (s : State) : Prop where
  legal : CfgLegal s.cfg
  quiet : QuietEnvironment s
  completes : dataReadStuck s = false
  standing : ∃ ph new, AcquisitionAt past ph new s

theorem StepCase.lBase_eq (hr : s.ports.rst = false) (hc : s.ports.cmd = none) (hu : StepCase s u) :
    u.regs.lBase = s.regs.lBase := by
  cases hu with
  | reset hrst => exact absurd (hr.symm.trans hrst) Bool.false_ne_true
  | start _ hcmd | startFault _ hcmd | init _ hcmd | initFault _ hcmd | ack _ hcmd => cases hc.symm.trans hcmd
  | _ => rfl

theorem dataReadStuck_congr (hc : u.cfg = s.cfg) (hb : u.regs.lBase = s.regs.lBase) :
    dataReadStuck u = dataReadStuck s := by
  simp only [dataReadStuck, effAddr, hc, hb]

theorem QuietAcquisition.of_stepCase (h : QuietAcquisition past s) (hu : StepCase s u) : QuietAcquisition past u := by
  obtain ⟨hl, hq, hd, ph, new, hat⟩ := h
  obtain ⟨hr, hc, -⟩ := id hq
  have hack : s.ports.cmd ≠ some 3 := by rw [hc]; nofun
  refine ⟨hu.cfg_eq ▸ hl, hu.quiet hq, ?_, hu.acquisition hl hr hack hat⟩
  rw [dataReadStuck_congr hu.cfg_eq (hu.lBase_eq hr hc), hd]

theorem Phase.terminal_or_acquiring (ph : Phase) : Terminal ph.code ∨ Acquiring ph.code := by
  cases ph with
  | timeout => exact (show Terminal stTimeout ∨ Acquiring stTimeout by decide)
  | _ => decide

/-- No operation of an acquisition stops where the data read completes. -/
theorem exists_step_of_acquiring (hl : CfgLegal s.cfg) (hq : QuietEnvironment s) (hd : dataReadStuck s = false)
    (hw : s.regs.waiting = false) (ha : Acquiring s.regs.state) : ∃ t, step s = .next t := by
  have runs {i : Instr} {u : State} {code : StateCode} (hs : s.regs.state = code)
      (hdec : decode ⟨.state, code, []⟩ = .ok i) (hx : exec i s = .next u) : ∃ t, step s = .next t :=
    ⟨advance u, by rw [step_of_fetch (fetch_of_quiet hq hw (hs ▸ hdec)), hx, settle]⟩
  obtain (hs | hs | hs) | hs | hs := ha
  · exact runs (i := .waitReadyPre) hs rfl (engineOp_enabled hl hs hw)
  · exact runs (i := .drain) hs rfl (execDrain_of_not_stuck hl hs hw hd)
  · exact runs (i := .waitReadyPost) hs rfl (engineOp_enabled hl hs hw)
  · exact runs (i := .trigger) hs rfl (engineOp_enabled hl hs hw)
  · exact runs (i := .read) hs rfl (execRead_of_not_stuck hl hs hw hd)

/-- Until DONE = 1 every step goes on with the acquisition and leaves less to do. -/
theorem QuietAcquisition.exists_step (h : QuietAcquisition past s) (ha : Acquiring s.regs.state) :
    ∃ t, step s = .next t ∧ QuietAcquisition past t ∧ stepsLeft t < stepsLeft s := by
  obtain ⟨hl, hq, hd, ph, new, hat⟩ := id h
  obtain ⟨hr, hc, ht, -⟩ := id hq
  cases hw : s.regs.waiting with
  | true =>
    refine ⟨_, step_of_suspended hl hq hw, h.of_stepCase (.expire hr hw ht), ?_⟩
    rw [stepsLeft, stepsLeft, hw]
    exact Nat.lt_succ_self _
  | false =>
    obtain ⟨t, hstep⟩ := exists_step_of_acquiring hl hq hd hw ha
    obtain ⟨-, u, rfl, hu⟩ := step_cases hstep
    rw [advance_of_quiet (hu.quiet hq)] at hstep
    exact ⟨u, hstep, h.of_stepCase hu, hu.stepsLeft_lt hl hat ⟨hr, hc, hw⟩ ha⟩

/-- So DONE = 1 is reached within the steps left. -/
theorem QuietAcquisition.reaches_done (h : QuietAcquisition past s) :
    ∃ k t, k ≤ stepsLeft s ∧ Sys2Proof.core.run k s = .next t ∧ done t.regs = true := by
  induction hn : stepsLeft s using Nat.strong_induction_on generalizing s with
  | h n ih =>
    obtain ⟨ph, new, hat⟩ := h.standing
    obtain hterm | ha := ph.terminal_or_acquiring
    · exact ⟨0, s, Nat.zero_le _, rfl, (done_iff _).mpr (hat.state ▸ hterm)⟩
    · obtain ⟨u, hstep, hnext, hlt⟩ := h.exists_step (hat.state ▸ ha)
      obtain ⟨k, t, hk, hrun, hdone⟩ := ih _ (hn ▸ hlt) hnext rfl
      exact ⟨k + 1, t, by omega, run_succ.mpr ⟨u, hstep, hrun⟩, hdone⟩

/-! ### The attach-time configuration (R112) -/

theorem fetch_of_attaching (hq : QuietEnvironment s) (hs : s.regs.state = stInit) (hw : s.regs.waiting = false) :
    fetch s = .ok (some .initState) :=
  fetch_of_quiet hq hw (hs ▸ rfl)

theorem drop_cfgTable_of_exhausted {c : Cfg} {n : Nat} (hl : CfgLegal c) (hn : n = c.nCfg) : c.cfgTable.drop n = [] := by
  obtain ⟨⟨-, -, -, -, hlen⟩, -⟩ := hl
  exact List.drop_eq_nil_of_le (hlen.trans hn.symm).le

/-- INIT with `n` entries still to write: one write a step, then SUCCESS. -/
theorem attach_run (n : Nat) (hl : CfgLegal s.cfg) (hs : s.regs.state = stInit) (hw : s.regs.waiting = false)
    (hq : QuietEnvironment s) (hn : s.regs.cfgIdx.toNat + n = s.cfg.nCfg) :
    ∃ t, Sys2Proof.core.run (n + 1) s = .next t ∧ t.regs.state = stSuccess ∧ t.regs.outcome = .success ∧
      t.trace = s.trace ++ (s.cfg.cfgTable.drop s.regs.cfgIdx.toNat).map
        fun e => configAccess s e.offset e.byte := by
  have hf := fetch_of_attaching hq hs hw
  induction n generalizing s with
  | zero =>
    rw [Nat.add_zero] at hn
    have hstep := step_of_quiet hf (exec_initState_of_exhausted hl hs hw hn) hq
    refine ⟨_, run_succ.mpr ⟨_, hstep, rfl⟩, rfl, rfl, ?_⟩
    rw [drop_cfgTable_of_exhausted hl hn]
    exact (List.append_nil _).symm
  | succ n ih =>
    have hlt : s.regs.cfgIdx.toNat < s.cfg.nCfg := by omega
    obtain ⟨e, he⟩ := cfgTable_getElem?_of_legal hl hlt
    have hstep := step_of_quiet hf (exec_initState_of_entry hl hs hw hlt he) hq
    have hi : (writeEntry s e).regs.cfgIdx.toNat = s.regs.cfgIdx.toNat + 1 :=
      counter_succ_toNat hlt (nCfg_le_of_legal hl)
    have hn' : (writeEntry s e).regs.cfgIdx.toNat + n = s.cfg.nCfg := by omega
    obtain ⟨t, hrun, hstate, hout, htrace⟩ := ih (s := writeEntry s e) hl hs hw hq hn' (fetch_of_attaching hq hs hw)
    refine ⟨t, run_succ.mpr ⟨_, hstep, hrun⟩, hstate, hout, ?_⟩
    obtain ⟨hget, rfl⟩ := List.getElem?_eq_some_iff.mp he
    rw [htrace, hi, List.drop_eq_getElem_cons hget, List.map_cons]
    exact List.append_assoc ..

end

/-! ### The statements -/

/-- Settles O49: each case of a step is a reset, a row, or leaves STATE; the invariant gives the strict bounds. -/
theorem stateChangesOnlyByTheTable : Obligations.StateChangesOnlyByTheTable := by
  intro s t h hstep
  obtain ⟨-, u, rfl, hu⟩ := step_cases hstep
  rw [advance_regs]
  exact hu.byTheTable h.sequencing

/-- Settles O55: every step of an acquisition left alone lowers the bound on the steps it still needs. -/
theorem acquisitionTerminates : Obligations.AcquisitionTerminates := by
  intro s hl hs hq hd
  obtain ⟨-, -, hat⟩ := inAcquisition_start hl hs hq.noResetNoAck
  obtain ⟨k, t, hk, hrun, hdone⟩ := QuietAcquisition.reaches_done ⟨hl, hq, hd, hat⟩
  obtain ⟨hstate, hretry, hw, -⟩ := hs
  rw [stepsLeft_of_code hstate hw, hretry] at hk
  have hk : k ≤ 2 * (s.cfg.bound - 0) - 1 + 4 * s.cfg.bound := hk
  have hb := (bound_range_of_legal hl).1
  exact ⟨k, t, by omega, hrun, hdone⟩

/-- Settles O56, by induction on the entries still to write. -/
theorem attachWritesTheTable : Obligations.AttachWritesTheTable := by
  intro s hl hs hi hw hq
  have hn : s.regs.cfgIdx.toNat + s.cfg.nCfg = s.cfg.nCfg := by rw [hi]; exact Nat.zero_add _
  obtain ⟨t, hrun, hstate, hout, htrace⟩ := attach_run _ hl hs hw hq hn
  rw [hi] at htrace
  exact ⟨t, hrun, hstate, hout, htrace⟩

/-- Settles O10: the ports in their widths are what is sampled, and the window check decides. -/
theorem startCompletes : Obligations.StartCompletes := by
  intro s hl hs hbase hlen ok
  obtain ⟨haccepted, hfaulted⟩ := enterOrFault_begin (ok := ok) (offs := acquireOffs s.cfg) hbase hlen
    (by rw [WindowOK, contained_acquireOffs])
  rw [exec_start_of_idle hl hs]
  exact ⟨fun h => by rw [haccepted h]; rfl, fun h => by rw [hfaulted h]; rfl⟩

/-- Settles O11, as O10 with the registers of CFG_TABLE. -/
theorem initCompletes : Obligations.InitCompletes := by
  intro s hl hs hbase hlen ok
  obtain ⟨haccepted, hfaulted⟩ := enterOrFault_begin (ok := ok) (offs := initOffs s.cfg) hbase hlen
    (by rw [WindowOK, contained_initOffs])
  rw [exec_init_of_idle hl hs]
  exact ⟨fun h => by rw [haccepted h]; rfl, fun h => by rw [hfaulted h]; rfl⟩

/-- Settles O16: the poll of READY of the state. -/
theorem waitReadyPreCompletes : Obligations.WaitReadyPreCompletes := fun _ hl hs hw =>
  (engineOp_enabled hl hs hw).trans (congrArg Host.Outcome.next readyPoll_eq)

/-- Settles O17: the same poll with its own stage and successor. -/
theorem waitReadyPostCompletes : Obligations.WaitReadyPostCompletes := fun _ hl hs hw =>
  (engineOp_enabled hl hs hw).trans (congrArg Host.Outcome.next readyPoll_eq)

/-- Settles O18: by the check. -/
theorem drainCompletes : Obligations.DrainCompletes := by
  intro s hl hs hw
  constructor
  · intro hb
    have hn : isNotEmpty s.cfg (statusValue s) = false := (isNotEmpty_eq _ _).trans (decide_eq_false hb)
    exact (execDrain_of_passed hl hs hw hn).trans (congrArg Host.Outcome.next (drainPoll_passed hn))
  · intro hb ha
    have hn : isNotEmpty s.cfg (statusValue s) = true := (isNotEmpty_eq _ _).trans (decide_eq_true hb)
    have hd := (dataReadStuck_eq_false s).mpr ha
    refine (execDrain_of_not_stuck hl hs hw hd).trans (congrArg Host.Outcome.next ?_)
    rw [drainPoll_failed hn, readData_readStatus_eq]
    rfl

/-- Settles O20: the scaler part of the invariant gives the exact numbers. -/
theorem readCompletes : Obligations.ReadCompletes := by
  intro s hl hs hw ha
  have hsc : ScalerInv ((readData s).setRegs (deliver s.cfg (dataValue s) s.regs)) := .of_deliver hl _ _ rfl rfl
  refine ⟨_, _, hsc.scaled, hsc.volt, ?_⟩
  refine (execRead_of_not_stuck hl hs hw ((dataReadStuck_eq_false s).mpr ha)).trans (congrArg Host.Outcome.next ?_)
  exact congrArg (readData s).setRegs (deliver_eq ..)

/-- Settles O21: by the index. -/
theorem initStateCompletes : Obligations.InitStateCompletes := by
  intro s hl hs hw
  refine ⟨fun hn => exec_initState_of_exhausted hl hs hw hn, fun hn => ?_⟩
  obtain ⟨e, he⟩ := cfgTable_getElem?_of_legal hl hn
  exact ⟨e, he, exec_initState_of_entry hl hs hw hn he⟩

/-- Settles O52: in a working state no command is accepted. -/
theorem commandsCannotDisturbAnOperation : Obligations.CommandsCannotDisturbAnOperation := by
  intro s hl hs hr hc hw
  obtain ⟨c, hc⟩ := Option.ne_none_iff_exists'.mp hc
  obtain ⟨i, hd, hx⟩ := exists_exec_cmd_of_working hl hs c
  refine ⟨advance s, ?_, advance_regs s, advance_trace s, advance_dev s⟩
  rw [step_of_fetch (fetch_of_cmd hr hw hc hd), hx, settle]

/-- Settles O12: a terminal state accepts ACK, which writes STATE alone. -/
theorem ackCompletes : Obligations.AckCompletes := fun _ hl hs =>
  ⟨_, hostCommand_accepted hl ((done_iff _).mpr hs), rfl, rfl, rfl⟩

/-- Settles O13: NOP writes nothing, the others are ignored where they are not accepted. -/
theorem unacceptedCommandsChangeNothing : Obligations.UnacceptedCommandsChangeNothing := fun _ hl =>
  ⟨exec_nop hl, fun hs => ⟨exec_start_of_not_idle hl hs, exec_init_of_not_idle hl hs⟩,
    fun hs => exec_ack_of_not_terminal hl hs⟩

/-- Settles O14: enabled or not, a resting state's operation changes nothing. -/
theorem restingStatesStand : Obligations.RestingStatesStand := fun _ hl =>
  ⟨engineOp_stand hl, engineOp_stand hl, engineOp_stand hl, engineOp_stand hl⟩

/-- Settles O15: each of the six is an engine operation of its code. -/
theorem disabledStateOperationsChangeNothing : Obligations.DisabledStateOperationsChangeNothing := by
  intro s hl
  simp only [List.forall_mem_cons]
  exact ⟨engineOp_disabled hl, engineOp_disabled hl, engineOp_disabled hl, engineOp_disabled hl, engineOp_disabled hl,
    engineOp_disabled hl, nofun⟩

/-- Settles O19: the write and the two registers. -/
theorem triggerCompletes : Obligations.TriggerCompletes := fun _ hl hs hw => engineOp_enabled hl hs hw

/-- Settles O22: the expiry writes WAITING alone. -/
theorem suspendExpireCompletes : Obligations.SuspendExpireCompletes := fun _ hl _ => guardLegal_of_legal hl

end Sys2Proof.Machine

/-! # The predicates and the scaler (42_scaler.md)

The functions executed on their own: ISREADY (O28), ISNOTEMPTY (O29), EXTRACT (O31), SCALE (O32), DIVIDE (O33) and CONVERT
(O34), and the laws of CONVERT (O35, O36). -/

namespace Sys2Proof.Machine

section
variable {s : State} {p : Nat}

/-- A function under a legal configuration writes `ret` alone; its value may be given in any equal form. -/
theorem returning_of_legal {v u : Result} (hl : CfgLegal s.cfg) (hv : v = u) :
    returning s v = .next { s with ret := u } :=
  returning_eq_next.mpr ⟨hl, by rw [hv, State.setRet]⟩

/-! ### The masked comparison (R130, R137) -/

theorem bitSet_eq_decide (mask b : Byte) : bitSet mask b = decide (b &&& mask ≠ 0) := by
  rw [decide_not]
  exact congrArg not (beq_eq_decide ..)

theorem not_bitSet_eq_decide (mask b : Byte) : (!bitSet mask b) = decide (b &&& mask = 0) := by
  rw [bitSet_eq_decide, decide_not, Bool.not_not]

theorem isReady_of_set {c : Cfg} (h : c.readyPol = true) (b : Byte) : readyWhenSet c b = isReady c b := by
  rw [isReady, h, beq_true, readyWhenSet]

theorem isReady_of_clear {c : Cfg} (h : c.readyPol = false) (b : Byte) : readyWhenClear c b = isReady c b := by
  rw [isReady, h, beq_false, readyWhenClear]

theorem isNotEmpty_of_set {c : Cfg} (h : c.nePol = true) (b : Byte) : pendingWhenSet c b = isNotEmpty c b := by
  rw [isNotEmpty, h, beq_true, pendingWhenSet]

theorem isNotEmpty_of_clear {c : Cfg} (h : c.nePol = false) (b : Byte) : pendingWhenClear c b = isNotEmpty c b := by
  rw [isNotEmpty, h, beq_false, pendingWhenClear]

/-! ### The laws of CONVERT (R135, R136) -/

theorem convert_eq (p r : Nat) : convert p r = r * 10 ^ (p + 1) / 32752 := by
  rw [convert, divide, scale, Nat.mul_assoc, Nat.pow_succ']

/-- R136 (a): scaling and dividing are both monotone. -/
theorem convert_mono {r r' : Nat} (h : r ≤ r') : convert p r ≤ convert p r' := by
  rw [convert_eq, convert_eq]
  exact Nat.div_le_div_right (Nat.mul_le_mul_right _ h)

/-- R136 (c): a multiple of the divisor converts without a remainder. -/
theorem convert_multiple (p k : Nat) : convert p (32752 * k) = k * 10 ^ (p + 1) := by
  rw [convert_eq, Nat.mul_assoc, Nat.mul_div_cancel_left _ (by decide)]

/-- R136 (b): zero is the multiple with k = 0. -/
theorem convert_zero (p : Nat) : convert p 0 = 0 := (convert_multiple p 0).trans (Nat.zero_mul _)

/-- One sample more adds 10^(P+1) to the product. -/
theorem convert_succ (p r : Nat) : convert p (r + 1) = (r * 10 ^ (p + 1) + 10 ^ (p + 1)) / 32752 := by
  rw [convert_eq, Nat.succ_mul]

theorem exec_convert (hl : CfgLegal s.cfg) (r : Half) :
    exec (.convert r) s = .next { s with ret := .number (convert s.cfg.p r.toNat) } :=
  returning_of_legal hl rfl

end

/-! ### The statements -/

/-- Settles O31: each field selection is an arithmetic function of the word, and `extract` is its three cases. -/
theorem extractCompletes : Obligations.ExtractCompletes := fun _ w hl =>
  ⟨returning_of_legal hl (congrArg Result.number (extractLow12_toNat w)),
    returning_of_legal hl (congrArg Result.number (extractShift4_toNat w)),
    returning_of_legal hl (congrArg Result.number (extractMask4_toNat w)), rfl, rfl, rfl⟩

/-- Settles O35: the three laws of CONVERT. -/
theorem convertIsMonotone : Obligations.ConvertIsMonotone := by
  intro s r r' hl hle
  refine ⟨_, _, exec_convert hl r, exec_convert hl r', convert_mono hle, ?_, ?_⟩
  · rintro rfl
    exact convert_zero _
  · intro k hk
    rw [hk, convert_multiple]

/-- Settles O28: by the polarity. -/
theorem isReadyCompletes : Obligations.IsReadyCompletes := by
  intro s b hl
  refine ⟨returning_of_legal hl (congrArg Result.truth (bitSet_eq_decide ..)),
    returning_of_legal hl (congrArg Result.truth (not_bitSet_eq_decide ..)), ?_⟩
  cases hp : s.cfg.readyPol with
  | true => exact returning_of_legal hl (congrArg Result.truth (isReady_of_set hp b))
  | false => exact returning_of_legal hl (congrArg Result.truth (isReady_of_clear hp b))

/-- Settles O29: by the polarity. -/
theorem isNotEmptyCompletes : Obligations.IsNotEmptyCompletes := by
  intro s b hl
  refine ⟨returning_of_legal hl (congrArg Result.truth (bitSet_eq_decide ..)),
    returning_of_legal hl (congrArg Result.truth (not_bitSet_eq_decide ..)), ?_⟩
  cases hp : s.cfg.nePol with
  | true => exact returning_of_legal hl (congrArg Result.truth (isNotEmpty_of_set hp b))
  | false => exact returning_of_legal hl (congrArg Result.truth (isNotEmpty_of_clear hp b))

/-- Settles O32: legality bounds the product of every sample the extractor delivers. -/
theorem scaleCompletes : Obligations.ScaleCompletes := by
  refine fun s r hl => ⟨returning_of_legal hl rfl, ?_⟩
  rintro w rfl
  exact scale_fits hl w

/-- Settles O33: the quotient of the truncating division lies between the two bounds. -/
theorem divideCompletes : Obligations.DivideCompletes := fun _ sc hl =>
  ⟨divide sc.toNat, returning_of_legal hl rfl, Nat.mul_div_le .., Nat.lt_mul_div_succ _ (by decide)⟩

/-- Settles O34: the two factors 10 and 10^P are one power. -/
theorem convertCompletes : Obligations.ConvertCompletes := by
  intro s r hl
  rw [exec_convert hl, convert_eq]

/-- Settles O36: at P = 4 one sample adds 100000 to the product, which is 3 * 32752 + 1744. -/
theorem convertStepsAtPrecisionFour : Obligations.ConvertStepsAtPrecisionFour := by
  intro r _
  rw [convert_succ, convert_eq]
  omega

end Sys2Proof.Machine

/-! # The output formatter (43_formatter.md)

DECIMAL (O37), FORMAT (O38) and its round trip (O39), RAWOUT (O40), the timeout reports (O41), TRUNC (O42) and the bound on
the length of every full string (O43). -/

namespace Sys2Proof.Machine

/-! ### The decimal string (R152) -/

section
variable (v : Long)

theorem decimal_allDigits : AllDigits (decimal v) :=
  (decimalDigits_spec 19 v.toNat (v.isLt.trans (by decide))).1

theorem decimal_reads : digitsValue (decimal v) = v.toNat := by
  obtain ⟨-, -, hv, -⟩ := decimalDigits_spec 19 v.toNat (v.isLt.trans (by decide))
  exact hv

/-- Only zero begins with the digit 0, and its string is that digit. -/
theorem decimal_noLeadingZero : NoLeadingZero (decimal v) := by
  obtain ⟨-, hne, -, -, hz, -⟩ := decimalDigits_spec 19 v.toNat (v.isLt.trans (by decide))
  refine ⟨hne, fun h => ?_⟩
  rw [decimal, hz h]
  rfl

/-- A number below 10^(k+1) is written with at most k + 1 digits. -/
theorem decimal_length_le {k : Nat} (h : v.toNat < 10 ^ (k + 1)) : (decimal v).length ≤ k + 1 :=
  decimalDigits_length_le 20 v.toNat k h

end

/-! ### The two parts of the formatted string (R151, R154) -/

/-- The digits FORMAT cuts in two: the decimal string, padded to P + 1 digits at least. -/
def formatDigits (p : Nat) (v : Long) : List Byte := padLeft (p + 1) (decimal v)

/-- The digits before the full stop. -/
def intDigits (p : Nat) (v : Long) : List Byte := (formatDigits p v).take ((formatDigits p v).length - p)

/-- The digits after the full stop. -/
def fracDigits (p : Nat) (v : Long) : List Byte := (formatDigits p v).drop ((formatDigits p v).length - p)

section
variable (p : Nat) (v : Long)

theorem format_zero : format 0 v = decimal v ++ [0x20, 0x56, 0x0A] := rfl

variable {p} in
theorem format_of_ne_zero (hp : p ≠ 0) :
    format p v = intDigits p v ++ [0x2E] ++ fracDigits p v ++ [0x20, 0x56, 0x0A] := if_neg hp

theorem formatDigits_length : (formatDigits p v).length = max (decimal v).length (p + 1) :=
  (padLeft_spec (p + 1) _ (decimal_allDigits v)).2.2

theorem formatDigits_reads : digitsValue (formatDigits p v) = v.toNat :=
  (padLeft_spec (p + 1) _ (decimal_allDigits v)).2.1.trans (decimal_reads v)

theorem formatDigits_allDigits : AllDigits (formatDigits p v) :=
  (padLeft_spec (p + 1) _ (decimal_allDigits v)).1

theorem intDigits_append_fracDigits : intDigits p v ++ fracDigits p v = formatDigits p v := List.take_append_drop ..

theorem intDigits_allDigits : AllDigits (intDigits p v) :=
  fun b hb => formatDigits_allDigits p v b (List.mem_of_mem_take hb)

theorem fracDigits_allDigits : AllDigits (fracDigits p v) :=
  fun b hb => formatDigits_allDigits p v b (List.mem_of_mem_drop hb)

theorem fracDigits_length : (fracDigits p v).length = p := by
  rw [fracDigits, List.length_drop, formatDigits_length]
  omega

/-- The fraction is below 10^P, so the two parts are the quotient and the remainder by 10^P. -/
theorem intDigits_fracDigits_read :
    digitsValue (intDigits p v) = v.toNat / 10 ^ p ∧ digitsValue (fracDigits p v) = v.toNat % 10 ^ p := by
  have hsum := digitsValue_append (intDigits p v) (fracDigits p v)
  have hlt := digitsValue_lt _ (fracDigits_allDigits p v)
  rw [fracDigits_length] at hsum hlt
  rw [intDigits_append_fracDigits, formatDigits_reads, Nat.add_comm, Nat.mul_comm] at hsum
  obtain ⟨hq, hr⟩ := (Nat.div_mod_unique (Nat.pow_pos (by decide))).mpr ⟨hsum.symm, hlt⟩
  exact ⟨hq.symm, hr.symm⟩

/-- A string of P digits or fewer is padded, so its integer part is the single digit 0. -/
theorem intDigits_of_short (h : (decimal v).length ≤ p) : intDigits p v = [0x30] := by
  rw [intDigits, formatDigits_length, show max (decimal v).length (p + 1) - p = 1 by omega, formatDigits, padLeft,
    Nat.succ_sub h]
  rfl

/-- A longer one is not padded. -/
theorem intDigits_of_long (h : p < (decimal v).length) :
    intDigits p v = (decimal v).take ((decimal v).length - p) := by
  have hd : formatDigits p v = decimal v := by
    rw [formatDigits, padLeft, Nat.sub_eq_zero_of_le h]
    rfl
  rw [intDigits, hd]

variable {p} in
/-- A first digit 0 comes from the padding, or from the decimal string of zero, which one digit of the fraction makes short. -/
theorem intDigits_noLeadingZero (hp : p ≠ 0) : NoLeadingZero (intDigits p v) := by
  obtain h | h := Nat.lt_or_ge p (decimal v).length
  · have hpos : (decimal v).length - p ≠ 0 := by omega
    obtain ⟨hne, hzero⟩ := decimal_noLeadingZero v
    rw [intDigits_of_long p v h]
    refine ⟨by simp [hpos, hne], fun hh => ?_⟩
    rw [List.head?_take, if_neg hpos] at hh
    rw [hzero hh, List.length_singleton] at h
    omega
  · rw [intDigits_of_short p v h]
    exact ⟨by decide, fun _ => rfl⟩

theorem format_length : (format p v).length =
    if p = 0 then (decimal v).length + 3 else max (decimal v).length (p + 1) + 1 + 3 := by
  split_ifs with hp
  · rw [hp, format_zero, List.length_append]
    rfl
  · have hlen := congrArg List.length (intDigits_append_fracDigits p v)
    rw [List.length_append, formatDigits_length] at hlen
    simp only [format_of_ne_zero v hp, List.length_append, List.length_cons, List.length_nil]
    omega

end

/-- No digit is the full stop. -/
theorem filter_stop_of_allDigits {l : List Byte} (h : AllDigits l) : (l.filter fun b => b ≠ 0x2E) = l := by
  refine List.filter_eq_self.mpr fun b hb => decide_eq_true ?_
  rintro rfl
  exact absurd (h _ hb).1 (by decide)

/-! ### The lengths under a legal configuration (R152, R159) -/

section
variable {c : Cfg}

/-- Clause (e) of R9 leaves at most 14 decimal places. -/
theorem p_le_of_legal (h : CfgLegal c) : c.p ≤ 14 := by
  obtain ⟨⟨-, -, hw, -⟩, -, -, -, -, hfits, -⟩ := h
  have hr : 4095 ≤ rmax c.extractMode := by
    unfold rmax
    split <;> decide
  have hacc : 2 ^ c.accW ≤ 2 ^ 64 := Nat.pow_le_pow_right (by decide) (by omega)
  by_contra hp
  have hpow : 10 ^ 15 ≤ 10 ^ c.p := Nat.pow_le_pow_right (by decide) (by omega)
  have hprod : 4095 * 10 * 10 ^ 15 ≤ rmax c.extractMode * 10 * 10 ^ c.p :=
    Nat.mul_le_mul (Nat.mul_le_mul_right _ hr) hpow
  omega

/-- The product of a data word is below 2^64, so its quotient by 32752 has at most 15 digits. -/
theorem decimal_length_le_of_convert {w : Half} {v : Long} (h : CfgLegal c)
    (hv : v.toNat = convert c.p (extract c.extractMode w).toNat) : (decimal v).length ≤ 15 := by
  have hs := scale_lt_long h w
  refine decimal_length_le v ?_
  rw [hv, convert, divide]
  omega

end

/-! ### The full strings (R150) -/

theorem diagLine_length_le (st : Stage) : (diagLine st).length ≤ 27 := by cases st <;> decide

theorem lenient_eq (m : OutMode) : lenient m = if m = .formatted then [] else [0x00, 0x00] := by cases m <;> rfl

theorem lenient_length_le (m : OutMode) : (lenient m).length ≤ 2 := by cases m <;> decide

theorem successReport_cases (c : Cfg) (r : Half) (v : Long) :
    successReport c r v = format c.p v ∨ successReport c r v = rawOut r := by
  unfold successReport
  cases c.outMode with
  | raw => exact .inr rfl
  | formatted => exact .inl rfl

theorem timeoutReport_cases (c : Cfg) (st : Stage) :
    timeoutReport c st = diagLine st ∨ timeoutReport c st = lenient c.outMode := ite_eq_or_eq ..

/-! ### The cut to the capacity (R158) -/

theorem truncLen_of_fits {full : List Byte} (h : full.length ≤ outBufBytes) (cap : Half) :
    truncLen full cap = min full.length cap.toNat := by
  rw [truncLen]
  omega

/-! ### The statements -/

/-- Settles O37, by the facts about the decimal string; 2^64 is below 10^20. -/
theorem decimalCompletes : Obligations.DecimalCompletes := fun _ v hl =>
  ⟨decimal v, returning_of_legal hl rfl, decimal_allDigits v, decimal_noLeadingZero v, decimal_reads v,
    decimal_length_le v (v.isLt.trans (by decide)), fun _ hv => decimal_length_le_of_convert hl hv⟩

/-- Settles O38: with P = 0 there is nothing to cut, else the digits are cut before the last P. -/
theorem formatCompletes : Obligations.FormatCompletes := by
  refine fun s v hl => ⟨format s.cfg.p v, returning_of_legal hl rfl, fun hp => ?_, fun hp => ?_, format_length s.cfg.p v⟩
  · rw [hp, format_zero]
  · obtain ⟨hint, hfrac⟩ := intDigits_fracDigits_read s.cfg.p v
    exact ⟨intDigits s.cfg.p v, fracDigits s.cfg.p v, format_of_ne_zero v hp, intDigits_allDigits s.cfg.p v,
      intDigits_noLeadingZero v hp, hint, fracDigits_allDigits s.cfg.p v, fracDigits_length s.cfg.p v, hfrac⟩

/-- Settles O39: without the full stop the two parts are the padded digits again. -/
theorem formatRoundTrips : Obligations.FormatRoundTrips := by
  intro p v
  obtain rfl | hp := eq_or_ne p 0
  · refine ⟨decimal v, format_zero v, ?_⟩
    rw [filter_stop_of_allDigits (decimal_allDigits v), decimal_reads]
  · refine ⟨_, format_of_ne_zero v hp, ?_⟩
    rw [List.filter_append, List.filter_append, filter_stop_of_allDigits (intDigits_allDigits p v),
      filter_stop_of_allDigits (fracDigits_allDigits p v), show ([0x2E].filter fun b : Byte => b ≠ 0x2E) = [] from rfl,
      List.append_nil, intDigits_append_fracDigits, formatDigits_reads]

/-- Settles O42: a well-formed string has no more than the 32 bytes of OUT_BUF, so L_CAP alone cuts it. -/
theorem truncCompletes : Obligations.TruncCompletes := by
  intro s full hl hw
  have hlen := truncLen_toNat full s.regs.lCap
  refine ⟨_, truncBuf full s.regs.lCap, guardLegal_of_legal hl, ?_, truncBuf_length .., fun i hi => ?_, fun i hi => ?_⟩
  · rw [hlen, truncLen_of_fits (of_decide_eq_true hw)]
  · exact truncBuf_delivered _ _ i (hi.trans_eq hlen)
  · exact truncBuf_zero _ _ i (hlen.ge.trans hi)

/-- Settles O43: at most 15 digits, or P + 1 with P at most 14, and the stop and the suffix; the reports by their cases. -/
theorem reportsFitTheBuffer : Obligations.ReportsFitTheBuffer := by
  intro c w v st m hl hv
  have hformat : (format c.p v).length ≤ 19 := by
    have hp := p_le_of_legal hl
    have hd := decimal_length_le_of_convert hl hv
    rw [format_length]
    split_ifs <;> omega
  refine ⟨hformat, rfl, diagLine_length_le st, lenient_length_le m, ?_, ?_⟩
  · obtain h | h := successReport_cases c (extract c.extractMode w) v <;> rw [h]
    · omega
    · exact Nat.le_of_ble_eq_true rfl
  · obtain h | h := timeoutReport_cases c st <;> rw [h]
    · exact diagLine_length_le st
    · exact (lenient_length_le _).trans (by decide)

/-- Settles O40: the two bytes are the remainder and the quotient by 256. -/
theorem rawOutCompletes : Obligations.RawOutCompletes := by
  refine fun s r hl => ⟨_, _, returning_of_legal hl rfl, ?_, ?_⟩
  · rw [BitVec.extractLsb'_toNat, Nat.shiftRight_zero]
  · rw [BitVec.extractLsb'_toNat, Nat.shiftRight_eq_div_pow]
    omega

/-- Settles O41: each line is the head, the name of the stage and the line feed. -/
theorem timeoutReportsComplete : Obligations.TimeoutReportsComplete := fun s hl =>
  ⟨returning_of_legal hl rfl, returning_of_legal hl rfl, returning_of_legal hl rfl, returning_of_legal hl rfl,
    returning_of_legal hl rfl, fun st => by rw [timeoutReport, lenient_eq]⟩

end Sys2Proof.Machine

/-! # Raises (60_exceptions.md)

raise Timeout (O44) and raise WindowFault (O45): under a legal configuration a raise rewrites the registers once and
makes no access. -/

namespace Sys2Proof.Machine

/-- Settles O44: the report is the one STRICT selects, DIAGLINE or LENIENT. -/
theorem raiseTimeoutCompletes : Obligations.RaiseTimeoutCompletes := by
  intro s st hl full
  calc exec (.raiseTimeout st) s
      = .next (s.setRegs (raiseTimeout s.cfg st s.regs)) := guardLegal_of_legal hl
    _ = _ := by rw [raiseTimeout_eq]; rfl

/-- Settles O45: no report is delivered, so OUT_LEN and OUT_BUF are zero whatever L_CAP is. -/
theorem raiseWindowFaultCompletes : Obligations.RaiseWindowFaultCompletes := by
  intro s hl
  calc exec .raiseWindowFault s
      = .next (s.setRegs (raiseWindowFault s.regs)) := guardLegal_of_legal hl
    _ = _ := by rw [raiseWindowFault_eq]; rfl

end Sys2Proof.Machine

/-! # Reset (70_reset_and_hazards.md)

The reset step (O9): it replaces the registers by their reset values (O8), makes no access, and RST selects it before
everything else. -/

namespace Sys2Proof.Machine

theorem exec_reset {s : State} (h : CfgLegal s.cfg) : exec .reset s = .next (s.setRegs Regs.reset) :=
  guardLegal_of_legal h

/-- Settles O9: the new registers are those of the reset state (O8), and RST is the first port a step looks at. -/
theorem resetCompletes : Obligations.ResetCompletes := by
  intro s hl
  obtain ⟨hregs, -, hbusy, hdone⟩ := resetValues
  exact ⟨⟨s.setRegs Regs.reset, exec_reset hl, hbusy, hdone, congrArg s.setRegs hregs⟩,
    fun hr => step_of_fetch (fetch_of_rst hr)⟩

end Sys2Proof.Machine
